-- ==== Sys2Proof/Word.lean ====
section
/-! DEFINITION. The word types of PZDHT-CORE, one per parameter width of rule R6 (spec/00_scope.md). -/

namespace Sys2Proof

/-- One frame field, 8 bits (R23, R24). -/
abbrev Byte := BitVec 8

/-- An edge timestamp, TICK_BITS = 32 bits of microseconds (R6, R13). -/
abbrev Tick := BitVec 32

/-- A wall-clock value, WALL_BITS = 64 bits of microseconds (R6, R245). -/
abbrev Wall := BitVec 64

/-- An error counter, CNT_BITS = 32 bits (R6, R35). -/
abbrev Count := BitVec 32

/-- A word of the read port, REG_BITS = 32 bits (R6, R61). -/
abbrev Word := BitVec 32

/-- A reading in tenths, 16 bits: HUM unsigned (R32), TEMP two's complement (R33). -/
abbrev Reading := BitVec 16

end Sys2Proof
end

