-- ==== Sys2Proof/Config.lean ====
section
/-! DEFINITION. The constants of rule R6 (spec/00_scope.md). The widths of R6 are the types of Word.lean. -/

namespace Sys2Proof.Config

/-- T_ONE: a pulse of this many microseconds or more is not Zero (R6, R101).
UNVERIFIED: the source's literal, unaudited (log 7); unsafe. -/
def tOne : Nat := 50

/-- T_CORRUPT: a pulse of this many microseconds or more is Corrupt (R6, R101).
UNVERIFIED: the source's literal, unaudited (log 7); unsafe. -/
def tCorrupt : Nat := 200

/-- T_START: a rising edge whose interval is strictly more than this is a start condition (R6, R121).
UNVERIFIED: the source's literal, unaudited (log 7); unsafe. -/
def tStart : Nat := 250000

/-- MAX_NO_RESPONSE: the streak escalates when it exceeds this value (R6, R172).
UNVERIFIED: the source's literal, unaudited (log 7); unsafe. -/
def maxNoResponse : Nat := 2

/-- P_IDLE: the bit position of the Idle state (R6, R22). -/
def pIdle : Int := 40

/-- P_START: the bit position a start condition sets (R6, R121). -/
def pStart : Int := -2

/-- FRAME_BITS: the bits of one frame, five fields of 8 (R6). The position of the last bit is one less (R127). -/
def frameBits : Int := 40

end Sys2Proof.Config
end

