-- ==== Sys2Proof/Machine/State.lean ====
section
/-! DEFINITION. The state of one block (spec/10_state.md, section 11), with the ports the model holds beside it, the
state after reset (R270), and the reasons a step could stop (none: R240, R292). -/

namespace Sys2Proof.Machine

open Sys2Proof

/-- The outputs of one step (R41, R80): the two pulses, and the word on rd_data. `rdData` is `none` in a step that
performs no read, where the spec gives rd_data no value (R80: valid in the cycle of the read).
DESIGN CHOICE (log 4): the outputs of the latest step stand in State; safe. -/
structure Outputs where
  disarm : Bool := false
  pwrcyc : Bool := false
  rdData : Option Word := none
  deriving DecidableEq, Repr

/-- No pulse and no read data. -/
def Outputs.quiet : Outputs := {}

/-- The input ports in one clock cycle (R80). -/
structure PortCycle where
  rst : Bool := false
  cmdValid : Bool := false
  cmdWord : BitVec 36 := 0#36
  rdEn : Bool := false
  rdAddr : BitVec 4 := 0#4
  wallNow : Wall := 0#64
  deriving DecidableEq, Repr

/-- One block. The fields up to `lStale` are the spec's state (spec/10_state.md, section 11). The last three are the
model's own: what stands at the ports (log 1, log 4). -/
structure State where
  /-- P, the bit position, a signed integer in [-2, 40] (R22). -/
  p : Int
  /-- HH, humidity-high field of the frame (R23). -/
  hh : Byte
  /-- HL, humidity-low field (R23). -/
  hl : Byte
  /-- TH, temperature-high field (R23). -/
  th : Byte
  /-- TL, temperature-low field (R23). -/
  tl : Byte
  /-- CS, checksum field (R24). -/
  cs : Byte
  /-- POISON, the frame in progress cannot validate (R25). -/
  poison : Bool
  /-- LAST_RISE, the tick of the latest accepted RISE (R26). -/
  lastRise : Tick
  /-- RISE_SEEN, a RISE has been accepted since reset (R27). -/
  riseSeen : Bool
  /-- STREAK, the no-response streak, a 2-bit counter (R28). -/
  streak : BitVec 2
  /-- ATTACHED, the block accepts edge-source events (R29). -/
  attached : Bool
  /-- CMDERR, a reserved kind was received (R30). -/
  cmdErr : Bool
  /-- VALID, a frame has validated since reset (R31). -/
  valid : Bool
  /-- HUM, humidity in tenths of a percent (R32). -/
  hum : Reading
  /-- TEMP, temperature in tenths of a degree, two's complement (R33). -/
  temp : Reading
  /-- TOV, the time-of-value (R34). -/
  tov : Wall
  /-- CNT_BADCS, the bad-checksum counter (R35). -/
  cntBadcs : Count
  /-- CNT_SHORT, the short-message counter (R35). -/
  cntShort : Count
  /-- CNT_MISSING, the missing-message counter (R35). -/
  cntMissing : Count
  /-- CNT_RESET, the sensor power-cycle counter (R35). -/
  cntReset : Count
  /-- L_VALID of the read latch (R36). -/
  lValid : Bool
  /-- L_HUM of the read latch (R36). -/
  lHum : Reading
  /-- L_TEMP of the read latch (R36). -/
  lTemp : Reading
  /-- L_TOV of the read latch (R36). -/
  lTov : Wall
  /-- L_STALE of the read latch (R36). -/
  lStale : Wall
  /-- The input wall_now of the present step (R80, R245); the model's own (log 1). -/
  wallNow : Wall
  /-- The cycles still to be presented at the input ports, the next one first (R12, R71); the model's own (log 1). -/
  inputs : List PortCycle
  /-- The outputs of the latest step (R41); the model's own (log 4). -/
  outputs : Outputs
  deriving DecidableEq, Repr

/-- SUBSCRIBED, the level output: it equals ATTACHED (R41, R248). -/
def State.subscribed (s : State) : Bool := s.attached

/-- cmd_ready, the constant output: a command is accepted in every cycle (R80, R84). -/
def State.cmdReady (_ : State) : Bool := true

/-- The machine right after reset: `P = 40` and every other element 0 (R270; spec/10_state.md section 11). The ports
hold nothing: no cycle presented, no output (DESIGN CHOICE, log 5; no statement rests on it). -/
def State.reset : State where
  p := 40
  hh := 0#8
  hl := 0#8
  th := 0#8
  tl := 0#8
  cs := 0#8
  poison := false
  lastRise := 0#32
  riseSeen := false
  streak := 0#2
  attached := false
  cmdErr := false
  valid := false
  hum := 0#16
  temp := 0#16
  tov := 0#64
  cntBadcs := 0#32
  cntShort := 0#32
  cntMissing := 0#32
  cntReset := 0#32
  lValid := false
  lHum := 0#16
  lTemp := 0#16
  lTov := 0#64
  lStale := 0#64
  wallNow := 0#64
  inputs := []
  outputs := Outputs.quiet

/-- Why a step could fault. No constructor: the block has no fault state (R292), raises no exception (R240), and no
operation of any kind stops. -/
inductive Fault where
  deriving DecidableEq, Repr

/-- Why a step could be refused. -/
inductive Refusal where
  /-- Raised by an arm of `exec` whose instruction has no meaning yet, and by nothing else; safe. No arm raises it now. -/
  | notModelled (mnemonic : String)
  deriving DecidableEq, Repr

/-- What a step of this machine answers. -/
abbrev Result := Host.Outcome State Fault Refusal

end Sys2Proof.Machine
end

