-- ==== Sys2Proof/Machine/Operands.lean ====
section
/-! DEFINITION. The operand forms: the TICK of an edge (R83), the interval it gives (R100), and how a register
becomes a 32-bit word of the read port (R8, R61, R67). -/

namespace Sys2Proof.Machine

open Sys2Proof

/-- The tick a TICK field gives a block whose ticks have `n` bits: the field itself at n = 32, its low bits below that
(R83). -/
def tickOperand {n : Nat} (field : BitVec 32) : BitVec n := field.setWidth n

/-- The interval of an edge: `(t - LAST_RISE) mod 2^TICK_BITS`, unsigned, in microseconds (R11, R100). -/
def interval {n : Nat} (t lastRise : BitVec n) : Nat := (t - lastRise).toNat

/-- A one-bit flag as the integer `zext_32` extends (R8). -/
def zextFlag (b : Bool) : Word := if b then 1#32 else 0#32

/-- zext_32 (R8). -/
def zext32 {n : Nat} (v : BitVec n) : Word := v.setWidth 32

/-- sext_32 (R8). -/
def sext32 {n : Nat} (v : BitVec n) : Word := v.signExtend 32

/-- Bits 31:0 of a wall-clock value, the low word of the pair (R67). -/
def loWord {n : Nat} (v : BitVec n) : Word := v.extractLsb' 0 32

/-- Bits 63:32 of a wall-clock value, the high word of the pair, zero-extended where the value is narrower (R67). -/
def hiWord {n : Nat} (v : BitVec n) : Word := v.extractLsb' 32 32

end Sys2Proof.Machine
end

