-- ==== Sys2Proof/Machine/Classifier.lean ====
section
/-! DEFINITION. The Pulse Classifier, a pure function of the pulse width (R101 to R104). -/

namespace Sys2Proof.Machine

open Sys2Proof

/-- The three outcomes of the classifier (R101). -/
inductive Pulse where
  | zero
  | one
  | corrupt
  deriving DecidableEq, Repr

/-- Zero below T_ONE, One from T_ONE up to T_CORRUPT, Corrupt from T_CORRUPT (R101). -/
def classify (d : Nat) : Pulse :=
  if d < Config.tOne then .zero
  else if d < Config.tCorrupt then .one
  else .corrupt

/-- The bit an outcome contributes to the frame; a Corrupt pulse counts as One (R102). -/
def bitval : Pulse → Bool
  | .zero => false
  | .one => true
  | .corrupt => true

/-- The poison signal (R103). -/
def isCorrupt : Pulse → Bool
  | .zero => false
  | .one => false
  | .corrupt => true

end Sys2Proof.Machine
end

