-- ==== Sys2Proof/Machine/Flags.lean ====
section
/-! DEFINITION. The computed words and conditions: the STATUS and debug words (R38, R39), the saturating counter
(R40), and the start condition of a rising edge (R121). -/

namespace Sys2Proof.Machine

open Sys2Proof

/-- sat_inc: one more, or the same value at the maximum (R40). -/
def satInc {n : Nat} (c : BitVec n) : BitVec n :=
  if c = BitVec.allOnes n then c else c + 1#n

/-- PQ, the 6-bit unsigned field that holds P + 2 (R22). -/
def pqOf (p : Int) : BitVec 6 := BitVec.ofInt 6 (p + 2)

/-- STATUS (R38), from bit 31 down: reserved 31:18, STREAK 17:16, reserved 15:14, PQ 13:8, reserved 7:5, CMDERR 4,
RISE_SEEN 3, POISON 2, ATTACHED 1, VALID 0. Reserved bits read 0. -/
def statusWord (s : State) : Word :=
  0#14 ++ s.streak ++ 0#2 ++ pqOf s.p ++ 0#3 ++ BitVec.ofBool s.cmdErr ++ BitVec.ofBool s.riseSeen
    ++ BitVec.ofBool s.poison ++ BitVec.ofBool s.attached ++ BitVec.ofBool s.valid

/-- FRAME_DATA is `{HH, HL, TH, TL}`, HH in bits 31:24 (R39). -/
def frameDataWord (s : State) : Word := s.hh ++ s.hl ++ s.th ++ s.tl

/-- FRAME_CS is `zext_32(CS)` (R39). -/
def frameCsWord (s : State) : Word := zext32 s.cs

/-- The start condition of an accepted RISE at tick `t`: the first rise since reset, or an interval strictly above
T_START (R121). -/
def isStart (t : Tick) (s : State) : Bool :=
  !s.riseSeen || decide (interval t s.lastRise > Config.tStart)

end Sys2Proof.Machine
end

