-- ==== Sys2Proof/Machine/Ops.lean ====
section
/-! DEFINITION. The named operations over the block's registers that the meanings share: outputs (R9, R41), the start
of a frame (R120), routing a bit (R123, R124), the conversion and the publish (R151 to R153), and the snapshot (R210).
The block takes no exception and returns from none (R240), so no such operation stands here. -/

namespace Sys2Proof.Machine

open Sys2Proof

/-- The outputs of this step, in place of those of the step before (R9, R41). -/
def State.emit (o : Outputs) (s : State) : State := { s with outputs := o }

/-- A step that asserts no pulse and returns no word. -/
def State.quiet (s : State) : State := s.emit Outputs.quiet

/-- A read's `return w`: the word on rd_data, no pulse (R9). -/
def State.respond (w : Word) (s : State) : State := s.emit { rdData := some w }

/-- What every accepted RISE writes: LAST_RISE and RISE_SEEN (R120). -/
def State.noteRise (t : Tick) (s : State) : State := { s with lastRise := t, riseSeen := true }

/-- What a start condition writes beside that: the five fields, POISON and P (R120, R121). -/
def State.startFrame (s : State) : State :=
  { s with hh := 0#8, hl := 0#8, th := 0#8, tl := 0#8, cs := 0#8, poison := false, p := Config.pStart }

/-- Shift-in: `((F << 1) | b) mod 256`, the old bit 7 dropped (R124). -/
def shiftIn (f : Byte) (b : Bool) : Byte := (f <<< 1) ||| (BitVec.ofBool b).setWidth 8

/-- Route a bit to the field of the present position (R123). The header positions write no field (R128); nor does any
position below -2, which no run reaches (log 6). -/
def State.routeBit (b : Bool) (s : State) : State :=
  if s.p < 0 then s
  else if s.p < 8 then { s with hh := shiftIn s.hh b }
  else if s.p < 16 then { s with hl := shiftIn s.hl b }
  else if s.p < 24 then { s with th := shiftIn s.th b }
  else if s.p < 32 then { s with tl := shiftIn s.tl b }
  else if s.p < 40 then { s with cs := shiftIn s.cs b }
  else s

/-- Humidity: `{hh, hl}`, unsigned tenths (R66, R151). -/
def humidityOf (hh hl : Byte) : Reading := hh ++ hl

/-- The magnitude of a temperature: `{th[6:0], tl}` (R66, R152). -/
def magnitudeOf (th tl : Byte) : Reading := (th &&& 0x7F#8) ++ tl

/-- Temperature: sign-magnitude, the sign in th bit 7, stored in two's complement (R152). -/
def temperatureOf (th tl : Byte) : Reading :=
  if th.getLsbD 7 then 0#16 - magnitudeOf th tl else magnitudeOf th tl

/-- The checksum over the raw fields, modulo 256, th with its bit 7 (R150, R155). -/
def checksumOf (hh hl th tl : Byte) : Byte := hh + hl + th + tl

/-- A completed frame passes when it is not poisoned and its sum is its checksum (R150). -/
def framePasses (s : State) : Bool :=
  !s.poison && decide (checksumOf s.hh s.hl s.th s.tl = s.cs)

/-- PUBLISH: the whole Reading Store in one step (R153). No range check (R156). -/
def State.publish (s : State) : State :=
  { s with
    hum := humidityOf s.hh s.hl
    temp := temperatureOf s.th s.tl
    tov := s.wallNow
    valid := true }

/-- VALIDATE of the frame as it stands: publish, or count a bad checksum and write nothing else (R150, R154). -/
def State.validate (s : State) : State :=
  if framePasses s then s.publish else { s with cntBadcs := satInc s.cntBadcs }

/-- The staleness a snapshot takes: the wall-clock time since TOV, modulo 2^WALL_BITS, or 0 for "never" (R210). -/
def stalenessOf (s : State) : Wall := if s.valid then s.wallNow - s.tov else 0#64

/-- The snapshot: the five latch registers in one step, from one state (R210). -/
def State.loadLatch (s : State) : State :=
  { s with
    lValid := s.valid
    lHum := s.hum
    lTemp := s.temp
    lTov := s.tov
    lStale := stalenessOf s }

end Sys2Proof.Machine
end

