-- ==== Sys2Proof/Machine/Control.lean ====
section
/-! DEFINITION. The control operations: ATTACH (R190), CLEANUP (R191) and the reserved kinds (R193). -/

namespace Sys2Proof.Machine

open Sys2Proof

/-- ATTACH: ATTACHED is set and nothing else changes (R190). TICK is ignored (R83). -/
def execAttach (_tick : BitVec 32) (s : State) : Result := .next { s.quiet with attached := true }

/-- CLEANUP: DISARM and detach when attached, else no effect (R191). TICK is ignored (R83). -/
def execCleanup (_tick : BitVec 32) (s : State) : Result :=
  if s.attached then .next { s.emit { disarm := true } with attached := false } else .next s.quiet

/-- What every reserved kind does: the sticky CMDERR, whatever ATTACHED holds, and nothing else (R193). -/
def State.noteReserved (s : State) : State := { s.quiet with cmdErr := true }

/-- RSV_CMD_3 (R193). -/
def execRsvCmd3 (_tick : BitVec 32) (s : State) : Result := .next s.noteReserved

/-- RSV_CMD_4_7 (R193); the same whichever kind of the group. -/
def execRsvCmd4To7 (_kind : BitVec 4) (_tick : BitVec 32) (s : State) : Result := .next s.noteReserved

/-- RSV_CMD_A_B (R193); the same whichever kind of the group. -/
def execRsvCmdAToB (_kind : BitVec 4) (_tick : BitVec 32) (s : State) : Result := .next s.noteReserved

/-- RSV_CMD_C_F (R193); the same whichever kind of the group. -/
def execRsvCmdCToF (_kind : BitVec 4) (_tick : BitVec 32) (s : State) : Result := .next s.noteReserved

end Sys2Proof.Machine
end

