-- ==== Sys2Proof/Machine/Edge.lean ====
section
/-! DEFINITION. The Frame Assembler: the meanings of RISE (R120, R121) and FALL (R122 to R128). -/

namespace Sys2Proof.Machine

open Sys2Proof

/-- An accepted RISE at tick `t`: LAST_RISE and RISE_SEEN, and on a start condition a new frame (R120). -/
def acceptRise (t : Tick) (s : State) : State :=
  if isStart t s then (s.noteRise t).startFrame.quiet else (s.noteRise t).quiet

/-- RISE (R120). No effect while detached (R192). -/
def execRise (tick : BitVec 32) (s : State) : Result :=
  if s.attached then .next (acceptRise (tickOperand tick) s) else .next s.quiet

/-- One pulse of outcome `c` taken into the frame: its bit routed, POISON updated, P advanced (R122 to R125, R128). -/
def takePulse (c : Pulse) (s : State) : State :=
  { s.routeBit (bitval c) with poison := s.poison || isCorrupt c, p := s.p + 1 }

/-- The completion of a frame: DISARM, STREAK cleared, and the validation (R127). -/
def completeFrame (s : State) : State :=
  State.validate { s with streak := 0#2, outputs := { disarm := true } }

/-- An accepted FALL whose pulse has outcome `c`: the pulse, and at old P = 39 the completion in the same step
(R122, R127). -/
def acceptFall (c : Pulse) (s : State) : State :=
  if s.p = Config.frameBits - 1 then completeFrame (takePulse c s) else (takePulse c s).quiet

/-- FALL (R122). No effect while detached (R192) and at P ≥ 40 (R126). It does not write LAST_RISE. -/
def execFall (tick : BitVec 32) (s : State) : Result :=
  if s.attached then
    if s.p ≥ Config.pIdle then .next s.quiet
    else .next (acceptFall (classify (interval (tickOperand tick) s.lastRise)) s)
  else .next s.quiet

end Sys2Proof.Machine
end

