-- ==== Sys2Proof/Machine/Policy.lean ====
section
/-! DEFINITION. The Error and Recovery Policy: the meaning of TIMEOUT (R170 to R176). -/

namespace Sys2Proof.Machine

open Sys2Proof

/-- The missing-message branch: the count, and the streak one longer or, above MAX_NO_RESPONSE, the escalation with
its count and PWRCYC (R171, R172). -/
def missingMessage (s : State) : State :=
  if s.streak.toNat + 1 > Config.maxNoResponse then
    { s with
      cntMissing := satInc s.cntMissing
      streak := 0#2
      cntReset := satInc s.cntReset
      outputs := { disarm := true, pwrcyc := true } }
  else
    { s with
      cntMissing := satInc s.cntMissing
      streak := s.streak + 1#2
      outputs := { disarm := true } }

/-- The short-message branch (R173). -/
def shortMessage (s : State) : State :=
  { s with cntShort := satInc s.cntShort, streak := 0#2, outputs := { disarm := true } }

/-- The fully-received branch: no counter moves (R174). -/
def fullMessage (s : State) : State := { s with streak := 0#2, outputs := { disarm := true } }

/-- The policy on P: missing below 8, short below 39, else fully received (R170). It reads P and writes neither P nor
the frame (R130, R175). -/
def acceptTimeout (s : State) : State :=
  if s.p < 8 then missingMessage s
  else if s.p < 39 then shortMessage s
  else fullMessage s

/-- TIMEOUT (R170), whether or not a guard was armed (R176). TICK is ignored (R83). No effect while detached (R192). -/
def execTimeout (_tick : BitVec 32) (s : State) : Result :=
  if s.attached then .next (acceptTimeout s) else .next s.quiet

end Sys2Proof.Machine
end

