-- ==== Sys2Proof/Machine/Read.lean ====
section
/-! DEFINITION. The read interface (spec/45_read_interface.md): each read returns its word in the same step; only SNAP
writes, and it writes the latch alone (R70). -/

namespace Sys2Proof.Machine

open Sys2Proof

/-- RD SNAP: loads the latch and returns VALID (R210). -/
def execRdSnap (s : State) : Result := .next (s.loadLatch.respond (zextFlag s.valid))

/-- RD L_HUM (R211). -/
def execRdLHum (s : State) : Result := .next (s.respond (zext32 s.lHum))

/-- RD L_TEMP, sign-extended (R212). -/
def execRdLTemp (s : State) : Result := .next (s.respond (sext32 s.lTemp))

/-- RD L_TOV_LO (R213). -/
def execRdLTovLo (s : State) : Result := .next (s.respond (loWord s.lTov))

/-- RD L_TOV_HI (R214). -/
def execRdLTovHi (s : State) : Result := .next (s.respond (hiWord s.lTov))

/-- RD L_STALE_LO (R215). -/
def execRdLStaleLo (s : State) : Result := .next (s.respond (loWord s.lStale))

/-- RD L_STALE_HI (R216). -/
def execRdLStaleHi (s : State) : Result := .next (s.respond (hiWord s.lStale))

/-- RD CNT_BADCS (R217). -/
def execRdCntBadcs (s : State) : Result := .next (s.respond (zext32 s.cntBadcs))

/-- RD CNT_SHORT (R218). -/
def execRdCntShort (s : State) : Result := .next (s.respond (zext32 s.cntShort))

/-- RD CNT_MISSING (R219). -/
def execRdCntMissing (s : State) : Result := .next (s.respond (zext32 s.cntMissing))

/-- RD CNT_RESET (R220). -/
def execRdCntReset (s : State) : Result := .next (s.respond (zext32 s.cntReset))

/-- RD STATUS (R221, R38). -/
def execRdStatus (s : State) : Result := .next (s.respond (statusWord s))

/-- RD FRAME_DATA (R222, R39). -/
def execRdFrameData (s : State) : Result := .next (s.respond (frameDataWord s))

/-- RD FRAME_CS (R223, R39). -/
def execRdFrameCs (s : State) : Result := .next (s.respond (frameCsWord s))

/-- RD reserved: 0 at both addresses (R224). -/
def execRdReserved (_addr : BitVec 4) (s : State) : Result := .next (s.respond 0#32)

end Sys2Proof.Machine
end

