-- ==== Sys2Proof/Syntax.lean ====
section
/-! DEFINITION. The operations of PZDHT-CORE: one constructor per row of spec/opcode_table.json (R2, R82, R85). -/

namespace Sys2Proof

/-- An operation of one of the two input ports. `tick` is the TICK field (R83), `kind` the KIND field of a
reserved group (R82), `addr` the read address of the reserved pair (R85). -/
inductive Instr where
  /-- FALL, KIND 0x0: a falling edge at `tick` (R122). -/
  | fall (tick : BitVec 32)
  /-- RISE, KIND 0x1: a rising edge at `tick` (R120). -/
  | rise (tick : BitVec 32)
  /-- TIMEOUT, KIND 0x2: the timeout guard fired; TICK ignored (R170). -/
  | timeout (tick : BitVec 32)
  /-- RSV_CMD_3, KIND 0x3, reserved (R193). -/
  | rsvCmd3 (tick : BitVec 32)
  /-- RSV_CMD_4_7, KIND 0x4 to 0x7, reserved (R193). -/
  | rsvCmd4To7 (kind : BitVec 4) (tick : BitVec 32)
  /-- ATTACH, KIND 0x8; TICK ignored (R190). -/
  | attach (tick : BitVec 32)
  /-- CLEANUP, KIND 0x9; TICK ignored (R191). -/
  | cleanup (tick : BitVec 32)
  /-- RSV_CMD_A_B, KIND 0xA and 0xB, reserved (R193). -/
  | rsvCmdAToB (kind : BitVec 4) (tick : BitVec 32)
  /-- RSV_CMD_C_F, KIND 0xC to 0xF, reserved (R193). -/
  | rsvCmdCToF (kind : BitVec 4) (tick : BitVec 32)
  /-- RD SNAP, address 0x0 (R210). -/
  | rdSnap
  /-- RD L_HUM, address 0x1 (R211). -/
  | rdLHum
  /-- RD L_TEMP, address 0x2 (R212). -/
  | rdLTemp
  /-- RD L_TOV_LO, address 0x3 (R213). -/
  | rdLTovLo
  /-- RD L_TOV_HI, address 0x4 (R214). -/
  | rdLTovHi
  /-- RD L_STALE_LO, address 0x5 (R215). -/
  | rdLStaleLo
  /-- RD L_STALE_HI, address 0x6 (R216). -/
  | rdLStaleHi
  /-- RD CNT_BADCS, address 0x7 (R217). -/
  | rdCntBadcs
  /-- RD CNT_SHORT, address 0x8 (R218). -/
  | rdCntShort
  /-- RD CNT_MISSING, address 0x9 (R219). -/
  | rdCntMissing
  /-- RD CNT_RESET, address 0xA (R220). -/
  | rdCntReset
  /-- RD STATUS, address 0xB (R221). -/
  | rdStatus
  /-- RD FRAME_DATA, address 0xC (R222). -/
  | rdFrameData
  /-- RD FRAME_CS, address 0xD (R223). -/
  | rdFrameCs
  /-- RD reserved, addresses 0xE and 0xF (R224). -/
  | rdReserved (addr : BitVec 4)
  deriving DecidableEq, Repr

end Sys2Proof
end

