-- ==== Sys2Proof/Machine/Dispatch.lean ====
section
/-! DEFINITION. The meaning of each operation of the opcode table, one arm each. -/

namespace Sys2Proof.Machine

open Sys2Proof

def exec (i : Instr) (s : State) : Host.Outcome State Fault Refusal :=
  match i with
  | .fall tick => Sys2Proof.Machine.execFall tick s
  | .rise tick => Sys2Proof.Machine.execRise tick s
  | .timeout tick => Sys2Proof.Machine.execTimeout tick s
  | .rsvCmd3 tick => Sys2Proof.Machine.execRsvCmd3 tick s
  | .rsvCmd4To7 kind tick => Sys2Proof.Machine.execRsvCmd4To7 kind tick s
  | .attach tick => Sys2Proof.Machine.execAttach tick s
  | .cleanup tick => Sys2Proof.Machine.execCleanup tick s
  | .rsvCmdAToB kind tick => Sys2Proof.Machine.execRsvCmdAToB kind tick s
  | .rsvCmdCToF kind tick => Sys2Proof.Machine.execRsvCmdCToF kind tick s
  | .rdSnap => Sys2Proof.Machine.execRdSnap s
  | .rdLHum => Sys2Proof.Machine.execRdLHum s
  | .rdLTemp => Sys2Proof.Machine.execRdLTemp s
  | .rdLTovLo => Sys2Proof.Machine.execRdLTovLo s
  | .rdLTovHi => Sys2Proof.Machine.execRdLTovHi s
  | .rdLStaleLo => Sys2Proof.Machine.execRdLStaleLo s
  | .rdLStaleHi => Sys2Proof.Machine.execRdLStaleHi s
  | .rdCntBadcs => Sys2Proof.Machine.execRdCntBadcs s
  | .rdCntShort => Sys2Proof.Machine.execRdCntShort s
  | .rdCntMissing => Sys2Proof.Machine.execRdCntMissing s
  | .rdCntReset => Sys2Proof.Machine.execRdCntReset s
  | .rdStatus => Sys2Proof.Machine.execRdStatus s
  | .rdFrameData => Sys2Proof.Machine.execRdFrameData s
  | .rdFrameCs => Sys2Proof.Machine.execRdFrameCs s
  | .rdReserved addr => Sys2Proof.Machine.execRdReserved addr s

end Sys2Proof.Machine
end

