-- ==== Sys2Proof/WellFormed.lean ====
section
/-! DEFINITION. Which terms of Instr stand for an operation of the ports: a reserved group holds only its own
kinds or addresses (R82, R85). Every other field is a bit vector of its encoded width, legal at every value (R83, R86). -/

namespace Sys2Proof

/-- A term the decoder can answer: the kind or address of a reserved row lies in that row (R82, R85). -/
def Instr.wellFormed : Instr → Bool
  | .rsvCmd4To7 kind _ => 0x4#4 ≤ kind && kind ≤ 0x7#4
  | .rsvCmdAToB kind _ => 0xA#4 ≤ kind && kind ≤ 0xB#4
  | .rsvCmdCToF kind _ => 0xC#4 ≤ kind
  | .rdReserved addr => 0xE#4 ≤ addr
  | .fall _ | .rise _ | .timeout _ | .rsvCmd3 _ | .attach _ | .cleanup _ => true
  | .rdSnap | .rdLHum | .rdLTemp | .rdLTovLo | .rdLTovHi | .rdLStaleLo | .rdLStaleHi => true
  | .rdCntBadcs | .rdCntShort | .rdCntMissing | .rdCntReset => true
  | .rdStatus | .rdFrameData | .rdFrameCs => true

end Sys2Proof
end

