-- ==== Sys2Proof/Decode.lean ====
section
/-! DEFINITION. The decoder of the two ports (R81, R82, R85), and after it the encoder written from the same tables.
On the ports' own words the decoder is total (R86). Only a number wider than its port is rejected, by name. -/

namespace Sys2Proof

/-- What is presented at a port: a 36-bit command word (R81) or a 4-bit read address (R85). -/
inductive PortWord where
  | cmd (w : BitVec 36)
  | rd (addr : BitVec 4)
  deriving DecidableEq, Repr

/-- Why a number is no word of its port. -/
inductive DecodeReject where
  /-- Raised by `decodeBits` for a command number of 2^36 or more: a command word is 36 bits (R81). -/
  | cmdWordTooWide
  /-- Raised by `decodeBits` for a read number of 16 or more: a read address is 4 bits (R85). -/
  | rdAddrTooWide
  deriving DecidableEq, Repr

/-- KIND, bits 35:32 of a command word (R81). -/
def kindOf (w : BitVec 36) : BitVec 4 := w.extractLsb' 32 4

/-- TICK, bits 31:0 of a command word (R81). -/
def tickOf (w : BitVec 36) : BitVec 32 := w.extractLsb' 0 32

/-- The operation of a command word, by exact match on KIND (R82). Total (R86). -/
def decodeCmd (w : BitVec 36) : Instr :=
  let kind := kindOf w
  let tick := tickOf w
  if kind = 0x0#4 then .fall tick
  else if kind = 0x1#4 then .rise tick
  else if kind = 0x2#4 then .timeout tick
  else if kind = 0x3#4 then .rsvCmd3 tick
  else if kind ≤ 0x7#4 then .rsvCmd4To7 kind tick
  else if kind = 0x8#4 then .attach tick
  else if kind = 0x9#4 then .cleanup tick
  else if kind ≤ 0xB#4 then .rsvCmdAToB kind tick
  else .rsvCmdCToF kind tick

/-- The operation of a read address (R85). Total (R86). -/
def decodeRead (addr : BitVec 4) : Instr :=
  if addr = 0x0#4 then .rdSnap
  else if addr = 0x1#4 then .rdLHum
  else if addr = 0x2#4 then .rdLTemp
  else if addr = 0x3#4 then .rdLTovLo
  else if addr = 0x4#4 then .rdLTovHi
  else if addr = 0x5#4 then .rdLStaleLo
  else if addr = 0x6#4 then .rdLStaleHi
  else if addr = 0x7#4 then .rdCntBadcs
  else if addr = 0x8#4 then .rdCntShort
  else if addr = 0x9#4 then .rdCntMissing
  else if addr = 0xA#4 then .rdCntReset
  else if addr = 0xB#4 then .rdStatus
  else if addr = 0xC#4 then .rdFrameData
  else if addr = 0xD#4 then .rdFrameCs
  else .rdReserved addr

/-- The operation presented at a port. -/
def decode : PortWord → Instr
  | .cmd w => decodeCmd w
  | .rd addr => decodeRead addr

/-- The port word of a number of `nbits` bits.
DESIGN CHOICE (log 12): the two formats of the table differ in length only (36 and 4 bits), so up to 8 bits it is a
read address and above that a command word; safe. -/
def portWordOfBits (nbits w : Nat) : Except DecodeReject PortWord :=
  if nbits ≤ 8 then
    if w < 2 ^ 4 then .ok (.rd (BitVec.ofNat 4 w)) else .error .rdAddrTooWide
  else
    if w < 2 ^ 36 then .ok (.cmd (BitVec.ofNat 36 w)) else .error .cmdWordTooWide

/-- Decoding on any number: the operation, or a rejection by name. -/
def decodeBits (nbits w : Nat) : Except DecodeReject Instr :=
  match portWordOfBits nbits w with
  | .ok pw => .ok (decode pw)
  | .error e => .error e

/-- The operation the decoder reads from a word of the opcode table (numbered as the table numbers it). -/
def decodeTableWord (nbits w : Nat) : Option Instr :=
  match decodeBits nbits w with
  | .ok i => some i
  | .error _ => none

/-- The command word of a KIND and a TICK: KIND in bits 35:32, TICK in bits 31:0 (R81). -/
def cmdWordOf (kind : BitVec 4) (tick : BitVec 32) : BitVec 36 := kind ++ tick

/-- The port word of an operation (R81, R82, R85). -/
def encode : Instr → PortWord
  | .fall tick => .cmd (cmdWordOf 0x0#4 tick)
  | .rise tick => .cmd (cmdWordOf 0x1#4 tick)
  | .timeout tick => .cmd (cmdWordOf 0x2#4 tick)
  | .rsvCmd3 tick => .cmd (cmdWordOf 0x3#4 tick)
  | .rsvCmd4To7 kind tick => .cmd (cmdWordOf kind tick)
  | .attach tick => .cmd (cmdWordOf 0x8#4 tick)
  | .cleanup tick => .cmd (cmdWordOf 0x9#4 tick)
  | .rsvCmdAToB kind tick => .cmd (cmdWordOf kind tick)
  | .rsvCmdCToF kind tick => .cmd (cmdWordOf kind tick)
  | .rdSnap => .rd 0x0#4
  | .rdLHum => .rd 0x1#4
  | .rdLTemp => .rd 0x2#4
  | .rdLTovLo => .rd 0x3#4
  | .rdLTovHi => .rd 0x4#4
  | .rdLStaleLo => .rd 0x5#4
  | .rdLStaleHi => .rd 0x6#4
  | .rdCntBadcs => .rd 0x7#4
  | .rdCntShort => .rd 0x8#4
  | .rdCntMissing => .rd 0x9#4
  | .rdCntReset => .rd 0xA#4
  | .rdStatus => .rd 0xB#4
  | .rdFrameData => .rd 0xC#4
  | .rdFrameCs => .rd 0xD#4
  | .rdReserved addr => .rd addr

end Sys2Proof
end

