-- ==== Sys2Proof/Machine/Port.lean ====
section
/-! DEFINITION. The input ports (R80): which operation the next step performs, in the total order of R71. A cycle with
`rst` resets the block (R270). Otherwise its read comes first (R72), then its command (R84). A cycle that presents
neither changes nothing (R80). -/

namespace Sys2Proof.Machine

open Sys2Proof

/-- What the ports present to a step: a state that is already the answer (a reset cycle, or no operation), or an
operation to perform at a state whose ports have been read. -/
inductive Presented where
  | settled (s : State)
  | operation (i : Instr) (s : State)
  deriving DecidableEq, Repr

/-- A cycle with `rst = 1`: every state element at its reset value, no pulse, rd_data 0, and what the cycle presents
beside it not performed (R270). The cycles after it are still to come, and the host clock is no state of the block
(DEDUCED, log 9). -/
def resetCycle (c : PortCycle) (rest : List PortCycle) : State :=
  { State.reset with wallNow := c.wallNow, inputs := rest, outputs := { rdData := some 0#32 } }

/-- What is left of a cycle once its read is performed: its command, if it presents one (R72). -/
def afterRead (c : PortCycle) (rest : List PortCycle) : List PortCycle :=
  if c.cmdValid then { c with rdEn := false } :: rest else rest

/-- The operation of the next step. With no cycle left nothing is presented, which is an idle cycle (R80; DESIGN
CHOICE, log 1). A cycle that presents a read and a command takes two steps (DEDUCED, log 2). An idle cycle is consumed
by a step that changes nothing of the block (DESIGN CHOICE, log 3). -/
def present (s : State) : Presented :=
  match s.inputs with
  | [] => .settled s.quiet
  | c :: rest =>
    if c.rst then .settled (resetCycle c rest)
    else if c.rdEn then
      .operation (decodeRead c.rdAddr) { s with inputs := afterRead c rest, wallNow := c.wallNow }
    else if c.cmdValid then
      .operation (decodeCmd c.cmdWord) { s with inputs := rest, wallNow := c.wallNow }
    else .settled { s.quiet with inputs := rest, wallNow := c.wallNow }

/-- The cycle that presents one port word and nothing else, with the host clock at `wall`. -/
def cycleOf (wall : Wall) : PortWord → PortCycle
  | .cmd w => { cmdValid := true, cmdWord := w, wallNow := wall }
  | .rd addr => { rdEn := true, rdAddr := addr, wallNow := wall }

/-- Present a word of the opcode table as the very next operation, at the wall clock as it stands. A number that is no
port word presents nothing. -/
def presentTableWord (s : State) (nbits w : Nat) : State :=
  match portWordOfBits nbits w with
  | .ok pw => { s with inputs := cycleOf s.wallNow pw :: s.inputs }
  | .error _ => s

end Sys2Proof.Machine
end

