-- ==== Sys2Proof/Machine/Step.lean ====
section
/-! DEFINITION. One step of the machine: the operation the ports present, performed (R12, R71). -/

namespace Sys2Proof.Machine

open Sys2Proof

/-- One step: the ports are read, and the operation they present is performed, or nothing is (R12, R71, R80, R270). -/
def step (s : State) : Host.Outcome State Fault Refusal :=
  match present s with
  | .settled t => .next t
  | .operation i t => exec i t

/-- The state whose very next step performs the operation of a word of the opcode table. -/
def State.withFetchWord (s : State) (nbits w : Nat) : State := presentTableWord s nbits w

end Sys2Proof.Machine
end

