-- ==== Sys2Proof/Machine/Trace.lean ====
section
/-! DEFINITION. Traces (R89), the programs of this block, as abstract syntax, and their pseudo-operations (R90): how a
list of lines becomes the cycles presented at the ports. -/

namespace Sys2Proof.Machine

open Sys2Proof

/-- One line of a trace (R89, R90). -/
inductive TraceLine where
  /-- FALL, RISE, TIMEOUT, ATTACH, CLEANUP or RD. -/
  | op (i : Instr)
  /-- CMD kind, tick: any kind, reserved ones included. -/
  | cmd (kind : BitVec 4) (tick : BitVec 32)
  /-- PULSE t, w. -/
  | pulse (t w : BitVec 32)
  /-- BIT t, b. -/
  | bit (t : BitVec 32) (b : Bool)
  /-- @wall=v, no operation: the host clock of the lines after it. -/
  | wall (v : Wall)
  deriving DecidableEq, Repr

/-- PULSE t, w is RISE t, then FALL (t + w) mod 2^32 (R90). -/
def pulseOps (t w : BitVec 32) : List Instr := [.rise t, .fall (t + w)]

/-- BIT t, b is a PULSE of 26 for a 0 and of 70 for a 1 (R90; the widths are illustrative). -/
def bitOps (t : BitVec 32) (b : Bool) : List Instr := pulseOps t (if b then 70#32 else 26#32)

/-- The port words of a line (R89, R90). -/
def lineWords : TraceLine → List PortWord
  | .op i => [encode i]
  | .cmd kind tick => [.cmd (cmdWordOf kind tick)]
  | .pulse t w => (pulseOps t w).map encode
  | .bit t b => (bitOps t b).map encode
  | .wall _ => []

/-- The cycles of a trace, one operation a cycle, with the host clock at `wall` up to the first @wall (R89). -/
def traceCycles : Wall → List TraceLine → List PortCycle
  | _, [] => []
  | _, .wall v :: lines => traceCycles v lines
  | wall, .op i :: lines => (lineWords (.op i)).map (cycleOf wall) ++ traceCycles wall lines
  | wall, .cmd k t :: lines => (lineWords (.cmd k t)).map (cycleOf wall) ++ traceCycles wall lines
  | wall, .pulse t w :: lines => (lineWords (.pulse t w)).map (cycleOf wall) ++ traceCycles wall lines
  | wall, .bit t b :: lines => (lineWords (.bit t b)).map (cycleOf wall) ++ traceCycles wall lines

/-- A state whose ports will be presented a trace (log 17). -/
def State.loadTrace (lines : List TraceLine) (s : State) : State :=
  { s with inputs := traceCycles s.wallNow lines }

end Sys2Proof.Machine
end

