-- ==== Sys2Proof/Safety.lean ====
section
/-! DEFINITION. The terms in which claims are stated: the invariant of rule R42, what a run shows (R292), operations
performed in a row (R71), what may come between the steps of one claim (R129, R177, R225), and the host's clock duty
(R284). -/

namespace Sys2Proof

open Sys2Proof.Machine

/-- What holds after every step (R42), and the range of TEMP (R33), which the latch keeps. -/
structure Inv (s : State) : Prop where
  /-- R42 (a). -/
  positionLow : -2 ≤ s.p
  /-- R42 (a). -/
  positionHigh : s.p ≤ 40
  /-- R42 (b). -/
  streakBound : s.streak.toNat ≤ 2
  /-- R42 (c). -/
  storeEmpty : s.valid = false → s.hum = 0#16 ∧ s.temp = 0#16 ∧ s.tov = 0#64
  /-- R42 (d). -/
  latchEmpty : s.lValid = false → s.lHum = 0#16 ∧ s.lTemp = 0#16 ∧ s.lTov = 0#64 ∧ s.lStale = 0#64
  /-- R42 (e). -/
  riseBeforeFrame : s.p < 40 → s.riseSeen = true
  /-- R33, R152: the value 0x8000 is never produced. -/
  tempRange : s.temp ≠ 0x8000#16
  /-- The same of the latched copy (R36). -/
  latchTempRange : s.lTemp ≠ 0x8000#16

/-- Operations performed in a row, each a step, at one wall-clock value (R71). -/
def execAll : List Instr → State → Result
  | [], s => .next s
  | i :: is, s =>
    match exec i s with
    | .next t => execAll is t
    | .fault r => .fault r
    | .refused r => .refused r

/-- The observation of a run of `k` steps: each step's outputs in order, and the final state (R292). -/
def observe : Nat → State → List Outputs × State
  | 0, s => ([], s)
  | k + 1, s =>
    match step s with
    | .next t => (t.outputs :: (observe k t).1, (observe k t).2)
    | .fault _ => ([], s)
    | .refused _ => ([], s)

/-- From `s` to `u` nothing sticky is cleared and no counter falls (R274). -/
structure StickyKept (s u : State) : Prop where
  valid : s.valid = true → u.valid = true
  cmdErr : s.cmdErr = true → u.cmdErr = true
  riseSeen : s.riseSeen = true → u.riseSeen = true
  cntBadcs : s.cntBadcs.toNat ≤ u.cntBadcs.toNat
  cntShort : s.cntShort.toNat ≤ u.cntShort.toNat
  cntMissing : s.cntMissing.toNat ≤ u.cntMissing.toNat
  cntReset : s.cntReset.toNat ≤ u.cntReset.toNat

/-- An event of the edge source (R12). -/
def isEdgeEvent : Instr → Bool
  | .fall _ | .rise _ | .timeout _ => true
  | .rsvCmd3 _ | .rsvCmd4To7 _ _ | .attach _ | .cleanup _ | .rsvCmdAToB _ _ | .rsvCmdCToF _ _ => false
  | .rdSnap | .rdLHum | .rdLTemp | .rdLTovLo | .rdLTovHi | .rdLStaleLo | .rdLStaleHi => false
  | .rdCntBadcs | .rdCntShort | .rdCntMissing | .rdCntReset => false
  | .rdStatus | .rdFrameData | .rdFrameCs | .rdReserved _ => false

/-- The time from tick `a` to tick `b`, modulo 2^32 (R100): what the block measures of a true interval below 2^32. -/
def elapsed (a b : Tick) : Nat := (b.toNat + 2 ^ 32 - a.toNat) % 2 ^ 32

/-! ### What comes between -/

/-- The tick of a RISE. -/
def riseTick : Instr → Option Tick
  | .rise t => some t
  | .fall _ | .timeout _ | .rsvCmd3 _ | .rsvCmd4To7 _ _ => none
  | .attach _ | .cleanup _ | .rsvCmdAToB _ _ | .rsvCmdCToF _ _ => none
  | .rdSnap | .rdLHum | .rdLTemp | .rdLTovLo | .rdLTovHi | .rdLStaleLo | .rdLStaleHi => none
  | .rdCntBadcs | .rdCntShort | .rdCntMissing | .rdCntReset => none
  | .rdStatus | .rdFrameData | .rdFrameCs | .rdReserved _ => none

/-- Whether an operation is a FALL. -/
def isFall : Instr → Bool
  | .fall _ => true
  | .rise _ | .timeout _ | .rsvCmd3 _ | .rsvCmd4To7 _ _ => false
  | .attach _ | .cleanup _ | .rsvCmdAToB _ _ | .rsvCmdCToF _ _ => false
  | .rdSnap | .rdLHum | .rdLTemp | .rdLTovLo | .rdLTovHi | .rdLStaleLo | .rdLStaleHi => false
  | .rdCntBadcs | .rdCntShort | .rdCntMissing | .rdCntReset => false
  | .rdStatus | .rdFrameData | .rdFrameCs | .rdReserved _ => false

/-- ATTACHED after an operation, from ATTACHED before it (R29). -/
def attachedAfter (attached : Bool) : Instr → Bool
  | .attach _ => true
  | .cleanup _ => false
  | .fall _ | .rise _ | .timeout _ | .rsvCmd3 _ | .rsvCmd4To7 _ _ => attached
  | .rsvCmdAToB _ _ | .rsvCmdCToF _ _ => attached
  | .rdSnap | .rdLHum | .rdLTemp | .rdLTovLo | .rdLTovHi | .rdLStaleLo | .rdLStaleHi => attached
  | .rdCntBadcs | .rdCntShort | .rdCntMissing | .rdCntReset => attached
  | .rdStatus | .rdFrameData | .rdFrameCs | .rdReserved _ => attached

/-- How many FALLs of a row of operations come while ATTACHED is 1, from its value before the first (R192). -/
def fallsWhileAttached : Bool → List Instr → Nat
  | _, [] => 0
  | attached, i :: is => (if attached && isFall i then 1 else 0) + fallsWhileAttached (attachedAfter attached i) is

/-- No accepted RISE of a row of operations is a start condition (R121), from ATTACHED, RISE_SEEN and LAST_RISE before
the first: each comes at most T_START after the accepted rise before it. -/
def startFree : Bool → Bool → Tick → List Instr → Bool
  | _, _, _, [] => true
  | attached, seen, last, i :: is =>
    match attached, riseTick i with
    | true, some t => seen && decide (elapsed last t ≤ Config.tStart) && startFree attached true t is
    | true, none => startFree (attachedAfter attached i) seen last is
    | false, _ => startFree (attachedAfter attached i) seen last is

/-- The step from `s` performs operation `i` and answers `t`, with the cycle's own wall clock and whatever is presented
after it. -/
def Performs (s : State) (i : Instr) (t : State) : Prop :=
  (∃ v, present s = .operation i v) ∧ step s = .next t

/-- A step that performs a missing-message TIMEOUT (R171). -/
def MissingMessageStep (s t : State) : Prop :=
  s.attached = true ∧ s.p < 8 ∧ ∃ k, Performs s (.timeout k) t

/-- A step without reset that leaves STREAK as it was. -/
def StreakKeptStep (s t : State) : Prop :=
  (∀ c rest, s.inputs = c :: rest → c.rst = false) ∧ step s = .next t ∧ t.streak = s.streak

/-- Any number of such steps, each with its own wall clock: no streak-changing step comes between (R177). -/
abbrev StreakKept : State → State → Prop := Relation.ReflTransGen StreakKeptStep

/-- A cycle that neither resets nor presents a SNAP. -/
def keepsLatch (c : PortCycle) : Bool := !c.rst && !(c.rdEn && decide (c.rdAddr = 0x0#4))

/-! ### The host's clock -/

/-- The host's duty of R284: wall_now does not decrease from the present step on, over the cycles still to come. -/
def ClockMonotone (s : State) : Prop :=
  (s.wallNow.toNat :: s.inputs.map fun c => c.wallNow.toNat).Pairwise (· ≤ ·)

/-- TOV is no later than the wall clock, once there is a reading (R34, R284). -/
def TovInPast (s : State) : Prop := s.valid = true → s.tov.toNat ≤ s.wallNow.toNat

end Sys2Proof
end

