-- ==== Sys2Proof/Certificates/Slice0/Obligations.lean ====
section
/-! DEFINITION. The statements for the provers, from the numbered rules of spec/. A duration is written
`elapsed s.lastRise t` = `(t + 2^32 - LAST_RISE) mod 2^32` (R100); a record `{ s with … }` states the frame as well:
every field it does not name is as it was. -/

section

open Sys2Proof
open Sys2Proof.Machine

/-! ### Reset and the step -/

/-- The reset table (spec/10_state.md section 11): P = 40 and every other element of the block 0. -/
def Obligations.ResetStateIsIdleAndEmpty : Prop :=
  State.reset.p = 40 ∧ State.reset.hh = 0#8 ∧ State.reset.hl = 0#8 ∧ State.reset.th = 0#8 ∧ State.reset.tl = 0#8
    ∧ State.reset.cs = 0#8 ∧ State.reset.poison = false ∧ State.reset.lastRise = 0#32 ∧ State.reset.riseSeen = false
    ∧ State.reset.streak = 0#2 ∧ State.reset.attached = false ∧ State.reset.cmdErr = false
    ∧ State.reset.valid = false ∧ State.reset.hum = 0#16 ∧ State.reset.temp = 0#16 ∧ State.reset.tov = 0#64
    ∧ State.reset.cntBadcs = 0#32 ∧ State.reset.cntShort = 0#32 ∧ State.reset.cntMissing = 0#32 ∧ State.reset.cntReset = 0#32
    ∧ State.reset.lValid = false ∧ State.reset.lHum = 0#16 ∧ State.reset.lTemp = 0#16 ∧ State.reset.lTov = 0#64
    ∧ State.reset.lStale = 0#64

/-- R270: a cycle with `rst = 1` gives every state element its reset value, whatever it presents beside it; no pulse,
rd_data 0, `subscribed` 0 from the next cycle; after it STATUS reads 0x00002A00 and every other address 0. -/
def Obligations.ResetCycleRestoresResetValues : Prop :=
  ∀ (s : State) (c : PortCycle) (rest : List PortCycle), s.inputs = c :: rest → c.rst = true →
    ∃ t, step s = .next t
      ∧ t = { p := 40, hh := 0#8, hl := 0#8, th := 0#8, tl := 0#8, cs := 0#8, poison := false, lastRise := 0#32,
              riseSeen := false, streak := 0#2, attached := false, cmdErr := false, valid := false, hum := 0#16,
              temp := 0#16, tov := 0#64, cntBadcs := 0#32, cntShort := 0#32, cntMissing := 0#32, cntReset := 0#32, lValid := false,
              lHum := 0#16, lTemp := 0#16, lTov := 0#64, lStale := 0#64, wallNow := t.wallNow, inputs := t.inputs,
              outputs := { disarm := false, pwrcyc := false, rdData := some 0#32 } }
      ∧ t.subscribed = false
      ∧ ∀ a : BitVec 4, ∃ u, exec (decodeRead a) t = .next u
          ∧ u.outputs.rdData = some (if a = 0xB#4 then 0x00002A00#32 else 0#32)

/-- A cycle with `rst` is one step: the cycles after it are still to come and the host's clock is that cycle's. (The
model's reading, DEDUCED, log 9.) -/
def Obligations.ResetCycleLeavesTheInputsToCome : Prop :=
  ∀ (s : State) (c : PortCycle) (rest : List PortCycle), s.inputs = c :: rest → c.rst = true →
    ∃ t, step s = .next t ∧ t.inputs = rest ∧ t.wallNow = c.wallNow

/-- The operation whose port word the next cycle presents is what the step performs, at the wall clock of that cycle
and with the cycle consumed. -/
def Obligations.StepRunsPresentedOperation : Prop :=
  ∀ (i : Instr) (s : State) (wall : Wall) (rest : List PortCycle), i.wellFormed = true →
    s.inputs = cycleOf wall (encode i) :: rest →
    step s = exec i { s with wallNow := wall, inputs := rest }

/-- A word of the opcode table that decodes to an operation, presented next, is performed by the next step. -/
def Obligations.StepRunsPresentedTableWord : Prop :=
  ∀ (s : State) (nbits w : Nat) (i : Instr), decodeTableWord nbits w = some i →
    step (s.withFetchWord nbits w) = exec i s

/-- R80: a cycle in which `cmd_valid = 0` and `rd_en = 0` changes nothing of the block and asserts no output. (That
the model takes a step for it, and for an exhausted input list, is its own choice: log 1 and log 3.) -/
def Obligations.IdleCycleChangesNothing : Prop :=
  (∀ (s : State) (c : PortCycle) (rest : List PortCycle), s.inputs = c :: rest → c.rst = false →
    c.rdEn = false → c.cmdValid = false →
    step s = .next { s with wallNow := c.wallNow, inputs := rest, outputs := {} })
  ∧ ∀ s : State, s.inputs = [] → step s = .next { s with outputs := {} }

/-- R72: of a read and a command in one cycle the read is performed first, so it observes the state before the
command; the command follows in the state the read left. (That the cycle is two steps is the model's reading,
DEDUCED, log 2.) -/
def Obligations.SameCycleReadPrecedesCommand : Prop :=
  ∀ (s : State) (c : PortCycle) (rest : List PortCycle), s.inputs = c :: rest → c.rst = false →
    c.rdEn = true → c.cmdValid = true →
    ∃ t, step s = .next t
      ∧ exec (decodeRead c.rdAddr) { s with wallNow := c.wallNow, inputs := t.inputs } = .next t
      ∧ step t = exec (decodeCmd c.cmdWord) { t with inputs := rest }

/-- R240, R292: every operation, with every operand value and in every state, completes, and so does every step; the
machine never faults and never refuses. -/
def Obligations.EveryStepCompletes : Prop :=
  (∀ (i : Instr) (s : State), ∃ t, exec i s = .next t) ∧ ∀ s : State, ∃ t, step s = .next t

/-- Presenting well-formed operations one a cycle and stepping once each is performing them in a row, in that order
(R71, R89). -/
def Obligations.RunPerformsPresentedOperationsInOrder : Prop :=
  ∀ (ops : List Instr) (s : State), (∀ i ∈ ops, i.wellFormed = true) →
    Host.Core.run Sys2Proof.core ops.length
        { s with inputs := ops.map fun i => cycleOf s.wallNow (encode i) }
      = execAll ops { s with inputs := [] }

/-- R292: a run of any length from any state goes on: it shows the outputs of every one of its steps and ends in a
state from which the next step is taken. -/
def Obligations.RunsNeverHalt : Prop :=
  ∀ (k : Nat) (s : State), (observe k s).1.length = k
    ∧ Host.Core.run Sys2Proof.core k s = .next (observe k s).2
    ∧ ∃ t, step (observe k s).2 = .next t

/-- R90: PULSE t, w is RISE t and then FALL (t + w) mod 2^32; BIT t, b is a PULSE of 26 for b = 0 and of 70 for b = 1,
which classify as Zero and One. -/
def Obligations.PseudoOperationsExpand : Prop :=
  ∀ (t w : BitVec 32) (wall : Wall) (lines : List TraceLine),
    traceCycles wall (.pulse t w :: lines)
        = traceCycles wall (.op (.rise t) :: .op (.fall (BitVec.ofNat 32 ((t.toNat + w.toNat) % 2 ^ 32))) :: lines)
    ∧ traceCycles wall (.bit t false :: lines) = traceCycles wall (.pulse t 26#32 :: lines)
    ∧ traceCycles wall (.bit t true :: lines) = traceCycles wall (.pulse t 70#32 :: lines)
    ∧ classify (26#32).toNat = .zero ∧ classify (70#32).toNat = .one

/-- R84, R248: `cmd_ready` is constantly 1 and the `subscribed` level equals ATTACHED. -/
def Obligations.LevelOutputsFollowTheState : Prop :=
  ∀ s : State, s.cmdReady = true ∧ s.subscribed = s.attached

/-! ### Encoding -/

/-- Decoding the port word of any well-formed operation gives the operation back. -/
def Obligations.DecodeEncodeRoundTrip : Prop :=
  ∀ i : Instr, i.wellFormed = true → decode (encode i) = i

/-- R86: every 36-bit word and every 4-bit address decodes to a well-formed operation, and encoding that operation
gives the word back, so no two words share an operation. -/
def Obligations.DecoderIsTotalAndFaithful : Prop :=
  ∀ pw : PortWord, (decode pw).wellFormed = true ∧ encode (decode pw) = pw

/-- The nine command rows of spec/opcode_table.json, by mask and match: the decoder gives a row's operation exactly on
the words of that row, with KIND and TICK taken from bits 35:32 and 31:0. -/
def Obligations.CommandDecodeFollowsTable : Prop :=
  ∀ w : BitVec 36,
    (w &&& 0xF00000000#36 = 0x000000000#36 ↔ decodeCmd w = .fall (w.extractLsb' 0 32))
    ∧ (w &&& 0xF00000000#36 = 0x100000000#36 ↔ decodeCmd w = .rise (w.extractLsb' 0 32))
    ∧ (w &&& 0xF00000000#36 = 0x200000000#36 ↔ decodeCmd w = .timeout (w.extractLsb' 0 32))
    ∧ (w &&& 0xF00000000#36 = 0x300000000#36 ↔ decodeCmd w = .rsvCmd3 (w.extractLsb' 0 32))
    ∧ (w &&& 0xC00000000#36 = 0x400000000#36
        ↔ decodeCmd w = .rsvCmd4To7 (w.extractLsb' 32 4) (w.extractLsb' 0 32))
    ∧ (w &&& 0xF00000000#36 = 0x800000000#36 ↔ decodeCmd w = .attach (w.extractLsb' 0 32))
    ∧ (w &&& 0xF00000000#36 = 0x900000000#36 ↔ decodeCmd w = .cleanup (w.extractLsb' 0 32))
    ∧ (w &&& 0xE00000000#36 = 0xA00000000#36
        ↔ decodeCmd w = .rsvCmdAToB (w.extractLsb' 32 4) (w.extractLsb' 0 32))
    ∧ (w &&& 0xC00000000#36 = 0xC00000000#36
        ↔ decodeCmd w = .rsvCmdCToF (w.extractLsb' 32 4) (w.extractLsb' 0 32))

/-- Words written out from R81, R82 and R85, and what they stand for. -/
def Obligations.SampleWordsDecode : Prop :=
  decode (.cmd 0x0000003DE#36) = .fall 990 ∧ decode (.cmd 0x10003D091#36) = .rise 250001
    ∧ decode (.cmd 0x200000000#36) = .timeout 0 ∧ decode (.cmd 0x300001234#36) = .rsvCmd3 0x1234
    ∧ decode (.cmd 0x700000000#36) = .rsvCmd4To7 7 0 ∧ decode (.cmd 0x800000000#36) = .attach 0
    ∧ decode (.cmd 0x900000000#36) = .cleanup 0 ∧ decode (.cmd 0xA00000000#36) = .rsvCmdAToB 10 0
    ∧ decode (.cmd 0xF00000000#36) = .rsvCmdCToF 15 0 ∧ decode (.rd 0x0#4) = .rdSnap
    ∧ decode (.rd 0x6#4) = .rdLStaleHi ∧ decode (.rd 0xB#4) = .rdStatus ∧ decode (.rd 0xF#4) = .rdReserved 15

/-! ### The classifier -/

/-- R101 to R103: Zero below 50 µs, One from 50 up to 200, Corrupt from 200; a Corrupt pulse contributes a 1, and it
alone poisons. -/
def Obligations.ClassifierThresholds : Prop :=
  ∀ d : Nat, (classify d = .zero ↔ d < 50) ∧ (classify d = .one ↔ 50 ≤ d ∧ d < 200)
    ∧ (classify d = .corrupt ↔ 200 ≤ d) ∧ (bitval (classify d) = true ↔ 50 ≤ d)
    ∧ (isCorrupt (classify d) = true ↔ 200 ≤ d)

/-- R100, R105: the measured interval is right across a wrap of the tick counter, and a tick before LAST_RISE gives
2^32 less the difference, which classifies Corrupt unless the difference is above 2^32 - 200. -/
def Obligations.IntervalIsModuloTicks : Prop :=
  ∀ t l : Tick, interval t l = elapsed l t
    ∧ (l.toNat ≤ t.toNat → interval t l = t.toNat - l.toNat)
    ∧ (t.toNat < l.toNat → interval t l = 2 ^ 32 - (l.toNat - t.toNat)
        ∧ (classify (interval t l) = .corrupt ↔ l.toNat - t.toNat ≤ 2 ^ 32 - 200))

/-! ### The frame assembler -/

/-- R120, R121: an accepted RISE is a start condition when no rise has been accepted since reset or the interval from
the previous one is strictly above 250000 µs; it then clears the five fields and POISON and sets P to -2. Any other
accepted RISE writes LAST_RISE and RISE_SEEN alone. Detached, it has no effect. Its KIND is 0x1. -/
def Obligations.RiseStartsFrameAfterLongInterval : Prop :=
  ∀ (t : BitVec 32) (s : State),
    decodeCmd (0x1#4 ++ t) = .rise t
    ∧ (s.attached = true → (s.riseSeen = false ∨ elapsed s.lastRise t > 250000) →
      exec (.rise t) s = .next { s with lastRise := t, riseSeen := true, hh := 0#8, hl := 0#8, th := 0#8, tl := 0#8,
                                        cs := 0#8, poison := false, p := -2, outputs := {} })
    ∧ (s.attached = true → s.riseSeen = true → elapsed s.lastRise t ≤ 250000 →
      exec (.rise t) s = .next { s with lastRise := t, riseSeen := true, outputs := {} })
    ∧ (s.attached = false → exec (.rise t) s = .next { s with outputs := {} })

/-- R123, R124, R128: an accepted FALL at P in [-2, 40) shifts its bit into the field of P (none at -2 and -1), leaves
the other fields, poisons on a Corrupt pulse, and advances P by one. -/
def Obligations.FallRoutesBitToFieldOfPosition : Prop :=
  ∀ (t : BitVec 32) (s : State), s.attached = true → -2 ≤ s.p → s.p < 40 →
    ∃ u, exec (.fall t) s = .next u ∧ u.p = s.p + 1
      ∧ u.poison = (s.poison || decide (200 ≤ elapsed s.lastRise t))
      ∧ u.hh.toNat = (if 0 ≤ s.p ∧ s.p < 8 then
          (2 * s.hh.toNat + if 50 ≤ elapsed s.lastRise t then 1 else 0) % 256 else s.hh.toNat)
      ∧ u.hl.toNat = (if 8 ≤ s.p ∧ s.p < 16 then
          (2 * s.hl.toNat + if 50 ≤ elapsed s.lastRise t then 1 else 0) % 256 else s.hl.toNat)
      ∧ u.th.toNat = (if 16 ≤ s.p ∧ s.p < 24 then
          (2 * s.th.toNat + if 50 ≤ elapsed s.lastRise t then 1 else 0) % 256 else s.th.toNat)
      ∧ u.tl.toNat = (if 24 ≤ s.p ∧ s.p < 32 then
          (2 * s.tl.toNat + if 50 ≤ elapsed s.lastRise t then 1 else 0) % 256 else s.tl.toNat)
      ∧ u.cs.toNat = (if 32 ≤ s.p ∧ s.p < 40 then
          (2 * s.cs.toNat + if 50 ≤ elapsed s.lastRise t then 1 else 0) % 256 else s.cs.toNat)

/-- The frame of a FALL that does not complete: only P, the frame fields and POISON change; LAST_RISE, STREAK, the
Reading Store, the counters and the latch stay, and no output is asserted (R122). -/
def Obligations.FallBeforeCompletionKeepsTheRest : Prop :=
  ∀ (t : BitVec 32) (s : State), s.attached = true → -2 ≤ s.p → s.p < 39 →
    ∃ u, exec (.fall t) s = .next u
      ∧ u = { s with p := u.p, hh := u.hh, hl := u.hl, th := u.th, tl := u.tl, cs := u.cs, poison := u.poison,
                     outputs := {} }

/-- R126: at P ≥ 40 a FALL has no effect, and no operation takes P above 40. -/
def Obligations.IdleFallHasNoEffect : Prop :=
  (∀ (t : BitVec 32) (s : State), 40 ≤ s.p →
    exec (.fall t) s = .next { s with outputs := {} })
  ∧ ∀ (i : Instr) (s u : State), s.p ≤ 40 → exec i s = .next u → u.p ≤ 40

/-- R125: an accepted FALL at P in [-2, 40) with a Corrupt pulse sets POISON; POISON stays until a start condition;
and a frame that completes with POISON set fails validation. -/
def Obligations.CorruptPulsePoisonsUntilNextStart : Prop :=
  (∀ (t : BitVec 32) (s : State), s.attached = true → -2 ≤ s.p → s.p < 40 → 200 ≤ elapsed s.lastRise t →
    ∃ u, exec (.fall t) s = .next u ∧ u.poison = true)
  ∧ (∀ (i : Instr) (s u : State), exec i s = .next u → s.poison = true →
      u.poison = true ∨ ∃ t, i = .rise t ∧ s.attached = true
        ∧ (s.riseSeen = false ∨ elapsed s.lastRise t > 250000))
  ∧ ∀ (t : BitVec 32) (s : State), s.attached = true → s.p = 39 →
      (s.poison = true ∨ 200 ≤ elapsed s.lastRise t) →
      ∃ u, exec (.fall t) s = .next u ∧ u.poison = true ∧ u.valid = s.valid ∧ u.hum = s.hum ∧ u.temp = s.temp
        ∧ u.tov = s.tov ∧ u.cntBadcs.toNat = min (s.cntBadcs.toNat + 1) (2 ^ 32 - 1)

/-- R127, R150 to R155: the FALL at P = 39 routes its bit, takes P to 40, emits DISARM, clears STREAK, and validates
in the same step: not poisoned and the sum of the four raw fields equal to CS modulo 256 publishes humidity and
sign-magnitude temperature with wall_now; otherwise CNT_BADCS counts and the store stays. Nothing else changes. -/
def Obligations.CompletingFallValidatesTheFrame : Prop :=
  ∀ (t : BitVec 32) (s : State), s.attached = true → s.p = 39 →
    ∃ u, exec (.fall t) s = .next u
      ∧ u.p = 40 ∧ u.streak = 0#2 ∧ u.outputs = { disarm := true, pwrcyc := false, rdData := none }
      ∧ u.poison = (s.poison || decide (200 ≤ elapsed s.lastRise t))
      ∧ u.cs.toNat = (2 * s.cs.toNat + if 50 ≤ elapsed s.lastRise t then 1 else 0) % 256
      ∧ (u.poison = false → (s.hh.toNat + s.hl.toNat + s.th.toNat + s.tl.toNat) % 256 = u.cs.toNat →
          u.hum.toNat = 256 * s.hh.toNat + s.hl.toNat
          ∧ u.temp.toInt = (if s.th.toNat < 128 then 256 * (s.th.toNat : Int) + s.tl.toNat
              else -(256 * ((s.th.toNat : Int) - 128) + s.tl.toNat))
          ∧ u.tov = s.wallNow ∧ u.valid = true ∧ u.cntBadcs = s.cntBadcs)
      ∧ ((u.poison = true ∨ (s.hh.toNat + s.hl.toNat + s.th.toNat + s.tl.toNat) % 256 ≠ u.cs.toNat) →
          u.hum = s.hum ∧ u.temp = s.temp ∧ u.tov = s.tov ∧ u.valid = s.valid
          ∧ u.cntBadcs.toNat = min (s.cntBadcs.toNat + 1) (2 ^ 32 - 1))
      ∧ u = { s with p := u.p, cs := u.cs, poison := u.poison, streak := u.streak, hum := u.hum, temp := u.temp,
                     tov := u.tov, valid := u.valid, cntBadcs := u.cntBadcs, outputs := u.outputs }

/-- R151, R152: the conversion of every pair of bytes, with -32768 never produced and a negative zero stored as 0. -/
def Obligations.ConversionIsSignMagnitude : Prop :=
  ∀ h l : Byte, (humidityOf h l).toNat = 256 * h.toNat + l.toNat
    ∧ (h.toNat < 128 → (temperatureOf h l).toInt = 256 * h.toNat + l.toNat)
    ∧ (128 ≤ h.toNat → (temperatureOf h l).toInt = -(256 * ((h.toNat : Int) - 128) + l.toNat))
    ∧ temperatureOf h l ≠ 0x8000#16

/-- The decoder as a whole (R64, R65, R90, R121, R122, R127, R129, R150 to R154): in any attached state, 42 pulses of
which the first rise is a start condition and none after it, each pulse shorter than 200 µs, complete a frame whose bit k
is pulse k + 2 (1 iff 50 µs or longer), most significant bit first, over HH, HL, TH, TL, CS; and that frame is validated:
a matching sum publishes humidity, temperature, the wall clock and VALID, another one counts and keeps the store. -/
def Obligations.PulseTrainDecodesToItsFrame : Prop :=
  ∀ (s : State) (r w : Nat → BitVec 32), s.attached = true →
    (s.riseSeen = false ∨ elapsed s.lastRise (r 0) > 250000) →
    (∀ k, k < 41 → elapsed (r k) (r (k + 1)) ≤ 250000) →
    (∀ k, k < 42 → (w k).toNat < 200) →
    ∃ u, execAll ((List.range 42).flatMap fun k => pulseOps (r k) (w k)) s = .next u
      ∧ u.p = 40 ∧ u.poison = false ∧ u.streak = 0#2 ∧ u.lastRise = r 41 ∧ u.outputs.disarm = true
      ∧ (∀ j, j < 8 → u.hh.getLsbD (7 - j) = decide (50 ≤ (w (2 + j)).toNat))
      ∧ (∀ j, j < 8 → u.hl.getLsbD (7 - j) = decide (50 ≤ (w (10 + j)).toNat))
      ∧ (∀ j, j < 8 → u.th.getLsbD (7 - j) = decide (50 ≤ (w (18 + j)).toNat))
      ∧ (∀ j, j < 8 → u.tl.getLsbD (7 - j) = decide (50 ≤ (w (26 + j)).toNat))
      ∧ (∀ j, j < 8 → u.cs.getLsbD (7 - j) = decide (50 ≤ (w (34 + j)).toNat))
      ∧ (u.hh + u.hl + u.th + u.tl = u.cs →
          u.valid = true ∧ u.hum.toNat = 256 * u.hh.toNat + u.hl.toNat
          ∧ u.temp.toInt = (if u.th.toNat < 128 then 256 * (u.th.toNat : Int) + u.tl.toNat
              else -(256 * ((u.th.toNat : Int) - 128) + u.tl.toNat))
          ∧ u.tov = s.wallNow ∧ u.cntBadcs = s.cntBadcs)
      ∧ (u.hh + u.hl + u.th + u.tl ≠ u.cs →
          u.valid = s.valid ∧ u.hum = s.hum ∧ u.temp = s.temp ∧ u.tov = s.tov
          ∧ u.cntBadcs.toNat = min (s.cntBadcs.toNat + 1) (2 ^ 32 - 1))

/-! ### The recovery policy -/

/-- R170 to R174: TIMEOUT emits DISARM and, on P alone, counts a missing message (with the escalation above a streak
of 2), counts a short message, or counts nothing; P, the frame and the store stay (R175). Detached, it has no effect.
Its KIND is 0x2 and its TICK is ignored. -/
def Obligations.TimeoutFollowsThePolicy : Prop :=
  ∀ (k : BitVec 32) (s : State),
    decodeCmd (0x2#4 ++ k) = .timeout k
    ∧ (s.attached = true → s.p < 8 → s.streak.toNat + 1 ≤ 2 →
      exec (.timeout k) s = .next { s with
        cntMissing := BitVec.ofNat 32 (min (s.cntMissing.toNat + 1) (2 ^ 32 - 1))
        streak := BitVec.ofNat 2 (s.streak.toNat + 1)
        outputs := { disarm := true, pwrcyc := false, rdData := none } })
    ∧ (s.attached = true → s.p < 8 → s.streak.toNat + 1 > 2 →
      exec (.timeout k) s = .next { s with
        cntMissing := BitVec.ofNat 32 (min (s.cntMissing.toNat + 1) (2 ^ 32 - 1))
        cntReset := BitVec.ofNat 32 (min (s.cntReset.toNat + 1) (2 ^ 32 - 1))
        streak := 0#2
        outputs := { disarm := true, pwrcyc := true, rdData := none } })
    ∧ (s.attached = true → 8 ≤ s.p → s.p < 39 →
      exec (.timeout k) s = .next { s with
        cntShort := BitVec.ofNat 32 (min (s.cntShort.toNat + 1) (2 ^ 32 - 1))
        streak := 0#2
        outputs := { disarm := true, pwrcyc := false, rdData := none } })
    ∧ (s.attached = true → 39 ≤ s.p →
      exec (.timeout k) s = .next { s with
        streak := 0#2, outputs := { disarm := true, pwrcyc := false, rdData := none } })
    ∧ (s.attached = false → exec (.timeout k) s = .next { s with outputs := {} })

/-- R40: a counter counts by one and stays at its maximum, at every width. -/
def Obligations.CounterSaturates : Prop :=
  ∀ (n : Nat) (c : BitVec n), (satInc c).toNat = min (c.toNat + 1) (2 ^ n - 1)

/-- R177: from any streak the machine can hold, three missing-message TIMEOUTs back to back escalate exactly once and
come back to that streak; they move no other counter. -/
def Obligations.EveryThirdMissingMessageEscalatesOnce : Prop :=
  ∀ (a b c : BitVec 32) (s : State), s.attached = true → s.p < 8 → s.streak.toNat ≤ 2 →
    ∃ u, execAll [.timeout a, .timeout b, .timeout c] s = .next u ∧ u.streak = s.streak
      ∧ u.cntReset.toNat = min (s.cntReset.toNat + 1) (2 ^ 32 - 1)
      ∧ u.cntMissing.toNat = min (s.cntMissing.toNat + 3) (2 ^ 32 - 1)
      ∧ u.cntShort = s.cntShort ∧ u.cntBadcs = s.cntBadcs

/-- R177, over steps: with no other streak-changing step (and no reset) between them, whatever else comes and at whatever
wall clock, three missing-message TIMEOUTs assert PWRCYC exactly once, count one escalation and three missing messages,
and come back to the streak they found. -/
def Obligations.EveryThirdMissingMessageStepEscalatesOnce : Prop :=
  ∀ a a' b b' c c' : State, a.streak.toNat ≤ 2 →
    MissingMessageStep a a' → StreakKept a' b → MissingMessageStep b b' → StreakKept b' c → MissingMessageStep c c' →
    c'.streak = a.streak ∧ c'.cntReset.toNat = min (a.cntReset.toNat + 1) (2 ^ 32 - 1)
      ∧ c'.cntMissing.toNat = min (a.cntMissing.toNat + 3) (2 ^ 32 - 1)
      ∧ a'.outputs.pwrcyc.toNat + b'.outputs.pwrcyc.toNat + c'.outputs.pwrcyc.toNat = 1

/-- R177: STREAK changes only in an accepted TIMEOUT and in a completing FALL, which clears it. -/
def Obligations.StreakChangesOnlyByTimeoutAndCompletion : Prop :=
  ∀ (i : Instr) (s u : State), exec i s = .next u → u.streak ≠ s.streak →
    (∃ k, i = .timeout k ∧ s.attached = true)
    ∨ ∃ k, i = .fall k ∧ s.attached = true ∧ s.p = 39 ∧ u.streak = 0#2

/-! ### Control -/

/-- R190, R191: ATTACH sets ATTACHED and nothing else; CLEANUP emits DISARM and clears it when attached, and has no
effect otherwise. Their KINDs are 0x8 and 0x9 and TICK is ignored. -/
def Obligations.AttachAndCleanupSetTheSubscription : Prop :=
  ∀ (k : BitVec 32) (s : State),
    decodeCmd (0x8#4 ++ k) = .attach k ∧ decodeCmd (0x9#4 ++ k) = .cleanup k
    ∧ exec (.attach k) s = .next { s with attached := true, outputs := {} }
    ∧ (s.attached = true → exec (.cleanup k) s = .next { s with
        attached := false, outputs := { disarm := true, pwrcyc := false, rdData := none } })
    ∧ (s.attached = false → exec (.cleanup k) s = .next { s with outputs := {} })

/-- R194: any number of ATTACHes from one on leaves the state of one ATTACH; any number of CLEANUPs leaves the state of
one CLEANUP, and every CLEANUP after the first asserts nothing. -/
def Obligations.ControlPairIsIdempotent : Prop :=
  ∀ (k : BitVec 32) (n : Nat) (s : State),
    execAll (List.replicate (n + 1) (.attach k)) s = exec (.attach k) s
    ∧ ∃ t, exec (.cleanup k) s = .next t
        ∧ execAll (List.replicate (n + 1) (.cleanup k)) t = .next { t with outputs := {} }

/-- R192: while detached, RISE, FALL and TIMEOUT have no effect and emit nothing; ATTACH, CLEANUP and every read are
performed whatever ATTACHED holds. -/
def Obligations.DetachedEventsHaveNoEffect : Prop :=
  (∀ (k : BitVec 32) (s : State), s.attached = false →
    exec (.rise k) s = .next { s with outputs := {} } ∧ exec (.fall k) s = .next { s with outputs := {} }
    ∧ exec (.timeout k) s = .next { s with outputs := {} })
  ∧ (∀ (k : BitVec 32) (s : State), (∃ t, exec (.attach k) s = .next t ∧ t.attached = true)
      ∧ ∃ t, exec (.cleanup k) s = .next t ∧ t.attached = false)
  ∧ ∀ (a : BitVec 4) (s : State), ∃ t, exec (decodeRead a) s = .next t ∧ t.outputs.rdData.isSome = true

/-- R288: after CLEANUP, any edge-source events, and ATTACH, the block is where it was before the CLEANUP: P, the frame
and LAST_RISE are kept, and every event in between was discarded. -/
def Obligations.ReattachKeepsTheFrame : Prop :=
  ∀ (a b : BitVec 32) (events : List Instr) (s : State), s.attached = true →
    (∀ i ∈ events, isEdgeEvent i = true) →
    execAll (.cleanup a :: (events ++ [.attach b])) s = .next { s with outputs := {} }

/-- R193: every reserved kind (0x3 to 0x7 and 0xA to 0xF), with any TICK and whatever ATTACHED holds, sets CMDERR and
changes nothing else. -/
def Obligations.ReservedKindsOnlySetCmdErr : Prop :=
  ∀ s : State,
    (∀ w : BitVec 36, (3 ≤ w.toNat / 2 ^ 32 ∧ w.toNat / 2 ^ 32 ≤ 7) ∨ 10 ≤ w.toNat / 2 ^ 32 →
      exec (decodeCmd w) s = .next { s with cmdErr := true, outputs := {} })
    ∧ ∀ (k : BitVec 4) (t : BitVec 32),
      exec (.rsvCmd3 t) s = .next { s with cmdErr := true, outputs := {} }
      ∧ exec (.rsvCmd4To7 k t) s = .next { s with cmdErr := true, outputs := {} }
      ∧ exec (.rsvCmdAToB k t) s = .next { s with cmdErr := true, outputs := {} }
      ∧ exec (.rsvCmdCToF k t) s = .next { s with cmdErr := true, outputs := {} }

/-! ### The read interface -/

/-- R210: RD SNAP loads the five latch registers from the one present state and returns VALID; L_STALE is the wall
time since TOV modulo 2^64, or 0 while there is no reading. Its address is 0x0. -/
def Obligations.SnapLoadsTheLatch : Prop :=
  decodeRead 0x0#4 = .rdSnap ∧ ∀ s : State, exec .rdSnap s = .next { s with
    lValid := s.valid, lHum := s.hum, lTemp := s.temp, lTov := s.tov
    lStale := if s.valid = true then BitVec.ofNat 64 ((s.wallNow.toNat + 2 ^ 64 - s.tov.toNat) % 2 ^ 64) else 0#64
    outputs := { disarm := false, pwrcyc := false, rdData := some (if s.valid = true then 1#32 else 0#32) } }

/-- R211 to R216: each latched read returns its latch register, L_TEMP sign-extended and the 64-bit values in two
words, and writes nothing. Their addresses are 0x1 to 0x6. -/
def Obligations.LatchedReadsReturnTheLatch : Prop :=
  (decodeRead 0x1#4 = .rdLHum ∧ decodeRead 0x2#4 = .rdLTemp ∧ decodeRead 0x3#4 = .rdLTovLo
    ∧ decodeRead 0x4#4 = .rdLTovHi ∧ decodeRead 0x5#4 = .rdLStaleLo ∧ decodeRead 0x6#4 = .rdLStaleHi)
  ∧ ∀ s : State, ∃ hum temp tovLo tovHi staleLo staleHi : Word,
    exec .rdLHum s = .next { s with outputs := { rdData := some hum } } ∧ hum.toNat = s.lHum.toNat
    ∧ exec .rdLTemp s = .next { s with outputs := { rdData := some temp } } ∧ temp.toInt = s.lTemp.toInt
    ∧ exec .rdLTovLo s = .next { s with outputs := { rdData := some tovLo } }
    ∧ exec .rdLTovHi s = .next { s with outputs := { rdData := some tovHi } }
    ∧ s.lTov.toNat = tovHi.toNat * 2 ^ 32 + tovLo.toNat
    ∧ exec .rdLStaleLo s = .next { s with outputs := { rdData := some staleLo } }
    ∧ exec .rdLStaleHi s = .next { s with outputs := { rdData := some staleHi } }
    ∧ s.lStale.toNat = staleHi.toNat * 2 ^ 32 + staleLo.toNat

/-- R217 to R220: each counter read returns its counter as it stands and writes nothing. Their addresses are 0x7 to
0xA. -/
def Obligations.CounterReadsReturnTheCounts : Prop :=
  (decodeRead 0x7#4 = .rdCntBadcs ∧ decodeRead 0x8#4 = .rdCntShort ∧ decodeRead 0x9#4 = .rdCntMissing
    ∧ decodeRead 0xA#4 = .rdCntReset)
  ∧ ∀ s : State,
    exec .rdCntBadcs s = .next { s with outputs := { rdData := some s.cntBadcs } }
    ∧ exec .rdCntShort s = .next { s with outputs := { rdData := some s.cntShort } }
    ∧ exec .rdCntMissing s = .next { s with outputs := { rdData := some s.cntMissing } }
    ∧ exec .rdCntReset s = .next { s with outputs := { rdData := some s.cntReset } }

/-- R38, R221: RD STATUS returns the fields of the present state at their bits, reserved bits 0, and writes nothing;
PQ is P + 2 for every P the machine can hold. Its address is 0xB, and after reset it returns 0x00002A00. -/
def Obligations.StatusReadHasItsFields : Prop :=
  decodeRead 0xB#4 = .rdStatus
  ∧ exec .rdStatus State.reset = .next { State.reset with outputs := { rdData := some 0x00002A00#32 } }
  ∧ ∀ s : State, ∃ w : Word, exec .rdStatus s = .next { s with outputs := { rdData := some w } }
    ∧ w.getLsbD 0 = s.valid ∧ w.getLsbD 1 = s.attached ∧ w.getLsbD 2 = s.poison ∧ w.getLsbD 3 = s.riseSeen
    ∧ w.getLsbD 4 = s.cmdErr ∧ w.extractLsb' 5 3 = 0#3
    ∧ (-2 ≤ s.p → s.p ≤ 40 → ((w.extractLsb' 8 6).toNat : Int) = s.p + 2)
    ∧ w.extractLsb' 14 2 = 0#2 ∧ w.extractLsb' 16 2 = s.streak ∧ w.extractLsb' 18 14 = 0#14

/-- R39, R222 to R224: RD FRAME_DATA returns HH, HL, TH, TL from the top byte down, RD FRAME_CS returns CS, the
reserved addresses return 0, and none of them writes anything. Their addresses are 0xC, 0xD, and 0xE and 0xF. -/
def Obligations.FrameAndReservedReads : Prop :=
  (decodeRead 0xC#4 = .rdFrameData ∧ decodeRead 0xD#4 = .rdFrameCs ∧ decodeRead 0xE#4 = .rdReserved 0xE#4
    ∧ decodeRead 0xF#4 = .rdReserved 0xF#4)
  ∧ ∀ (s : State) (a : BitVec 4), ∃ data csum : Word,
    exec .rdFrameData s = .next { s with outputs := { rdData := some data } }
    ∧ data.extractLsb' 24 8 = s.hh ∧ data.extractLsb' 16 8 = s.hl ∧ data.extractLsb' 8 8 = s.th
    ∧ data.extractLsb' 0 8 = s.tl
    ∧ exec .rdFrameCs s = .next { s with outputs := { rdData := some csum } } ∧ csum.toNat = s.cs.toNat
    ∧ exec (.rdReserved a) s = .next { s with outputs := { rdData := some 0#32 } }

/-- R70: a read of any address but 0x0 changes no state and, performed again, returns the same word; two SNAPs in a
row leave the same latch, but for L_STALE, which follows the wall clock of the second. -/
def Obligations.OnlySnapHasAReadSideEffect : Prop :=
  (∀ (a : BitVec 4) (s : State), a ≠ 0x0#4 → ∃ t, exec (decodeRead a) s = .next t
      ∧ t = { s with outputs := t.outputs } ∧ exec (decodeRead a) t = .next t)
  ∧ ∀ (s : State) (wall : Wall), ∃ t u, exec (decodeRead 0x0#4) s = .next t
      ∧ exec (decodeRead 0x0#4) { t with wallNow := wall } = .next u
      ∧ u = { t with wallNow := wall
                     lStale := if s.valid = true then BitVec.ofNat 64 ((wall.toNat + 2 ^ 64 - s.tov.toNat) % 2 ^ 64)
                       else 0#64 }

/-- R225: take a cycle that presents a SNAP, and after its step `t` any number of steps over cycles none of which resets
or presents another SNAP: commands (the one beside the SNAP too), reads and publishes among them, each cycle at its own
wall_now. Then every latched read, at any wall_now, returns the value of the one state the SNAP saw. -/
def Obligations.LatchedReadsComeFromOneSnapshot : Prop :=
  ∀ (s t u : State) (c : PortCycle) (rest : List PortCycle) (k : Nat), s.inputs = c :: rest →
    c.rst = false → c.rdEn = true → c.rdAddr = 0x0#4 → (∀ d ∈ rest, keepsLatch d = true) →
    step s = .next t → Host.Core.run Sys2Proof.core k t = .next u →
    ∀ (wall : Wall) (more : List PortCycle),
      let reads (a : BitVec 4) (w : Word) : Prop :=
        step { u with inputs := cycleOf wall (.rd a) :: more }
          = .next { u with wallNow := wall, inputs := more, outputs := { rdData := some w } }
      reads 0x1#4 (s.hum.setWidth 32) ∧ reads 0x2#4 (s.temp.signExtend 32)
      ∧ reads 0x3#4 (s.tov.extractLsb' 0 32) ∧ reads 0x4#4 (s.tov.extractLsb' 32 32)
      ∧ reads 0x5#4 (if s.valid = true then (c.wallNow - s.tov).extractLsb' 0 32 else 0#32)
      ∧ reads 0x6#4 (if s.valid = true then (c.wallNow - s.tov).extractLsb' 32 32 else 0#32)

/-- R226: with no publish between, and wall_now non-decreasing since the publish, the staleness of a later SNAP is at
least that of an earlier one; it is the wall time since the publishing step, so 0 at the same wall_now. -/
def Obligations.StalenessGrowsWithTheWallClock : Prop :=
  ∀ (s t : State), s.valid = true → t.valid = true → t.tov = s.tov → s.tov.toNat ≤ s.wallNow.toNat →
    s.wallNow.toNat ≤ t.wallNow.toNat →
    ∃ u v, exec .rdSnap s = .next u ∧ exec .rdSnap t = .next v ∧ u.lStale.toNat ≤ v.lStale.toNat
      ∧ v.lStale.toNat = t.wallNow.toNat - t.tov.toNat

/-! ### Rules of the whole machine -/

/-- R22, R129: P is written only by a start condition, which sets -2, and by an accepted FALL below 40, which adds
one. -/
def Obligations.PositionWrittenOnlyByStartAndFall : Prop :=
  ∀ (i : Instr) (s u : State), exec i s = .next u →
    u.p = s.p
    ∨ (u.p = -2 ∧ ∃ t, i = .rise t ∧ s.attached = true
        ∧ (s.riseSeen = false ∨ elapsed s.lastRise t > 250000))
    ∨ (u.p = s.p + 1 ∧ s.p < 40 ∧ s.attached = true ∧ ∃ t, i = .fall t)

/-- R129, R130: with no start condition among them, P counts the FALLs that come while attached, one each up to 40,
whatever RISEs, TIMEOUTs, ATTACHes, CLEANUPs, reserved words and reads come between; so from -2 a frame completes at the
42nd. -/
def Obligations.PositionCountsTheFalls : Prop :=
  ∀ (ops : List Instr) (s : State), s.p ≤ 40 → startFree s.attached s.riseSeen s.lastRise ops = true →
    ∃ u, execAll ops s = .next u ∧ u.p = min 40 (s.p + fallsWhileAttached s.attached ops)

/-- R26, R27: an accepted RISE writes its tick to LAST_RISE and sets RISE_SEEN, start condition or not; no other
operation writes either. -/
def Obligations.RiseTimingWrittenOnlyByAcceptedRise : Prop :=
  (∀ (t : BitVec 32) (s : State), s.attached = true →
    ∃ u, exec (.rise t) s = .next u ∧ u.lastRise = t ∧ u.riseSeen = true)
  ∧ ∀ (i : Instr) (s u : State), exec i s = .next u →
    (u.lastRise = s.lastRise ∧ u.riseSeen = s.riseSeen) ∨ (s.attached = true ∧ ∃ t, i = .rise t)

/-- R37: HUM, TEMP, TOV and VALID change only together, in a completing FALL that publishes the frame it completes. -/
def Obligations.ReadingStoreChangesOnlyTogether : Prop :=
  ∀ (i : Instr) (s u : State), exec i s = .next u →
    (u.hum = s.hum ∧ u.temp = s.temp ∧ u.tov = s.tov ∧ u.valid = s.valid)
    ∨ ((∃ t, i = .fall t) ∧ s.attached = true ∧ s.p = 39 ∧ u.poison = false
        ∧ u.hh + u.hl + u.th + u.tl = u.cs ∧ u.hum = u.hh ++ u.hl ∧ u.temp = temperatureOf u.th u.tl
        ∧ u.tov = s.wallNow ∧ u.valid = true)

/-- R35: every counter resets to 0, changes only by a saturating increment, and only in its own event: CNT_BADCS in a
completing FALL whose frame fails, CNT_SHORT in a short-message TIMEOUT, CNT_MISSING in a missing-message one, CNT_RESET in an
escalating one. -/
def Obligations.CountersChangeOnlyInTheirEvents : Prop :=
  (State.reset.cntBadcs = 0#32 ∧ State.reset.cntShort = 0#32 ∧ State.reset.cntMissing = 0#32 ∧ State.reset.cntReset = 0#32)
  ∧ ∀ (i : Instr) (s u : State), exec i s = .next u →
    (u.cntBadcs = s.cntBadcs
      ∨ (u.cntBadcs.toNat = min (s.cntBadcs.toNat + 1) (2 ^ 32 - 1) ∧ s.attached = true ∧ s.p = 39
          ∧ (u.poison = true ∨ u.hh + u.hl + u.th + u.tl ≠ u.cs) ∧ ∃ k, i = .fall k))
    ∧ (u.cntShort = s.cntShort
      ∨ (u.cntShort.toNat = min (s.cntShort.toNat + 1) (2 ^ 32 - 1) ∧ s.attached = true ∧ 8 ≤ s.p ∧ s.p < 39
          ∧ ∃ k, i = .timeout k))
    ∧ (u.cntMissing = s.cntMissing
      ∨ (u.cntMissing.toNat = min (s.cntMissing.toNat + 1) (2 ^ 32 - 1) ∧ s.attached = true ∧ s.p < 8
          ∧ ∃ k, i = .timeout k))
    ∧ (u.cntReset = s.cntReset
      ∨ (u.cntReset.toNat = min (s.cntReset.toNat + 1) (2 ^ 32 - 1) ∧ s.attached = true ∧ s.p < 8
          ∧ 2 ≤ s.streak.toNat ∧ ∃ k, i = .timeout k))

/-- R274: only reset clears the counters, VALID, CMDERR and RISE_SEEN: no operation does, nor any step whose cycle does
not assert `rst`; and a cycle with `rst` clears them all. -/
def Obligations.OnlyResetClearsStickyState : Prop :=
  (∀ (i : Instr) (s u : State), exec i s = .next u → StickyKept s u)
  ∧ (∀ s u : State, (∀ c rest, s.inputs = c :: rest → c.rst = false) → step s = .next u → StickyKept s u)
  ∧ ∀ (s : State) (c : PortCycle) (rest : List PortCycle), s.inputs = c :: rest → c.rst = true →
      ∃ u, step s = .next u ∧ u.valid = false ∧ u.cmdErr = false ∧ u.riseSeen = false ∧ u.cntBadcs = 0#32
        ∧ u.cntShort = 0#32 ∧ u.cntMissing = 0#32 ∧ u.cntReset = 0#32

/-- R29, R30: ATTACHED is written only by ATTACH and CLEANUP, and CMDERR only by the reserved kinds. -/
def Obligations.ControlFlagsWrittenOnlyByTheirCommands : Prop :=
  ∀ (i : Instr) (s u : State), exec i s = .next u →
    (u.attached = s.attached ∨ (u.attached = true ∧ ∃ k, i = .attach k)
      ∨ (u.attached = false ∧ ∃ k, i = .cleanup k))
    ∧ (u.cmdErr = s.cmdErr
      ∨ (u.cmdErr = true ∧ ∃ k t, i = .rsvCmd3 t ∨ i = .rsvCmd4To7 k t ∨ i = .rsvCmdAToB k t ∨ i = .rsvCmdCToF k t))

/-- R36: each register of the read latch resets to 0, and no operation but SNAP writes any. -/
def Obligations.LatchWrittenOnlyBySnap : Prop :=
  (State.reset.lValid = false ∧ State.reset.lHum = 0#16 ∧ State.reset.lTemp = 0#16 ∧ State.reset.lTov = 0#64
    ∧ State.reset.lStale = 0#64)
  ∧ ∀ (i : Instr) (s u : State), exec i s = .next u → i ≠ .rdSnap →
    u.lValid = s.lValid ∧ u.lHum = s.lHum ∧ u.lTemp = s.lTemp ∧ u.lTov = s.lTov ∧ u.lStale = s.lStale

/-- R247: DISARM is asserted exactly on completion, on an accepted TIMEOUT and on CLEANUP while attached; PWRCYC
exactly on escalation. -/
def Obligations.PulsesAssertedExactlyWhenEmitted : Prop :=
  ∀ (i : Instr) (s u : State), exec i s = .next u →
    (u.outputs.disarm = true ↔ s.attached = true
      ∧ ((s.p = 39 ∧ ∃ k, i = .fall k) ∨ (∃ k, i = .timeout k) ∨ ∃ k, i = .cleanup k))
    ∧ (u.outputs.pwrcyc = true ↔ s.attached = true ∧ s.p < 8 ∧ 2 ≤ s.streak.toNat ∧ ∃ k, i = .timeout k)

/-- R245: only RD SNAP and a publishing FALL read wall_now: any other operation does the same at any wall clock. -/
def Obligations.WallClockReadOnlyByPublishAndSnap : Prop :=
  ∀ (i : Instr) (s u : State) (wall : Wall), exec i s = .next u → i ≠ .rdSnap →
    exec i { s with wallNow := wall } = .next { u with wallNow := wall }
    ∨ ((∃ k, i = .fall k) ∧ s.attached = true ∧ s.p = 39 ∧ u.valid = true ∧ u.tov = s.wallNow
        ∧ exec i { s with wallNow := wall } = .next { u with wallNow := wall, tov := wall })

/-! ### Invariants -/

/-- The reset state meets the invariant. -/
def Obligations.ResetMeetsInvariant : Prop := Inv State.reset

/-- R42: every step, from any state that meets the invariant, gives a state that meets it. -/
def Obligations.StepKeepsInvariant : Prop :=
  ∀ s t : State, Inv s → step s = .next t → Inv t

/-- R284: while the host's clock does not decrease, TOV stays no later than wall_now, so staleness never wraps. -/
def Obligations.MonotoneClockKeepsTovInThePast : Prop :=
  ∀ s t : State, ClockMonotone s → TovInPast s → step s = .next t → ClockMonotone t ∧ TovInPast t

end
end

