-- ==== Sys2Proof/Laws/Decode.lean ====
section
/-! SUPPORT. The two fields of a command word, taken apart and put together (R81). -/

namespace Sys2Proof

/-- The KIND of a word put together from KIND and TICK. -/
@[simp] theorem kindOf_cmdWordOf (kind : BitVec 4) (tick : BitVec 32) : kindOf (cmdWordOf kind tick) = kind := by
  apply BitVec.eq_of_getLsbD_eq
  intro k hk
  simp only [kindOf, cmdWordOf, BitVec.getLsbD_extractLsb', BitVec.getLsbD_append]
  simp [hk]

/-- The TICK of a word put together from KIND and TICK. -/
@[simp] theorem tickOf_cmdWordOf (kind : BitVec 4) (tick : BitVec 32) : tickOf (cmdWordOf kind tick) = tick := by
  apply BitVec.eq_of_getLsbD_eq
  intro k hk
  simp only [tickOf, cmdWordOf, BitVec.getLsbD_extractLsb', BitVec.getLsbD_append]
  simp [hk]

/-- Every command word is its KIND and its TICK. -/
theorem cmdWordOf_kindOf_tickOf (w : BitVec 36) : cmdWordOf (kindOf w) (tickOf w) = w := by
  apply BitVec.eq_of_getLsbD_eq
  intro k hk
  simp only [kindOf, tickOf, cmdWordOf, BitVec.getLsbD_append, BitVec.getLsbD_extractLsb']
  by_cases h : k < 32
  · simp [h]
  · simp [h, show k - 32 < 4 by omega, show 32 + (k - 32) = k by omega]

/-- A mask of the opcode table covers KIND alone (R82). -/
theorem cmdWordOf_and_mask (kind mask value : BitVec 4) (tick : BitVec 32) :
    cmdWordOf kind tick &&& cmdWordOf mask 0 = cmdWordOf value 0 ↔ kind &&& mask = value := by
  have h : cmdWordOf kind tick &&& cmdWordOf mask 0 = cmdWordOf (kind &&& mask) 0 := by
    apply BitVec.eq_of_getLsbD_eq
    intro k hk
    simp only [cmdWordOf, BitVec.getLsbD_and, BitVec.getLsbD_append]
    by_cases h : k < 32 <;> simp [h]
  rw [h]
  exact ⟨fun e => by simpa using congrArg kindOf e, fun e => by rw [e]⟩

/-- The sixteen values of a 4-bit field, for case analysis over kinds and addresses. -/
theorem nibble_cases (k : BitVec 4) :
    k = 0 ∨ k = 1 ∨ k = 2 ∨ k = 3 ∨ k = 4 ∨ k = 5 ∨ k = 6 ∨ k = 7 ∨ k = 8 ∨ k = 9 ∨ k = 10 ∨ k = 11 ∨ k = 12
      ∨ k = 13 ∨ k = 14 ∨ k = 15 := by
  revert k; decide

end Sys2Proof
end

