-- ==== Sys2Proof/Laws/State.lean ====
section
/-! SUPPORT. One lemma per field per named update of State, each true by unfolding: no later proof unfolds an update. -/

namespace Sys2Proof.Machine.State

open Sys2Proof Sys2Proof.Machine

/-! ### emit -/

@[simp] theorem emit_p (o : Outputs) (s : State) : (s.emit o).p = s.p := rfl
@[simp] theorem emit_hh (o : Outputs) (s : State) : (s.emit o).hh = s.hh := rfl
@[simp] theorem emit_hl (o : Outputs) (s : State) : (s.emit o).hl = s.hl := rfl
@[simp] theorem emit_th (o : Outputs) (s : State) : (s.emit o).th = s.th := rfl
@[simp] theorem emit_tl (o : Outputs) (s : State) : (s.emit o).tl = s.tl := rfl
@[simp] theorem emit_cs (o : Outputs) (s : State) : (s.emit o).cs = s.cs := rfl
@[simp] theorem emit_poison (o : Outputs) (s : State) : (s.emit o).poison = s.poison := rfl
@[simp] theorem emit_lastRise (o : Outputs) (s : State) : (s.emit o).lastRise = s.lastRise := rfl
@[simp] theorem emit_riseSeen (o : Outputs) (s : State) : (s.emit o).riseSeen = s.riseSeen := rfl
@[simp] theorem emit_streak (o : Outputs) (s : State) : (s.emit o).streak = s.streak := rfl
@[simp] theorem emit_attached (o : Outputs) (s : State) : (s.emit o).attached = s.attached := rfl
@[simp] theorem emit_cmdErr (o : Outputs) (s : State) : (s.emit o).cmdErr = s.cmdErr := rfl
@[simp] theorem emit_valid (o : Outputs) (s : State) : (s.emit o).valid = s.valid := rfl
@[simp] theorem emit_hum (o : Outputs) (s : State) : (s.emit o).hum = s.hum := rfl
@[simp] theorem emit_temp (o : Outputs) (s : State) : (s.emit o).temp = s.temp := rfl
@[simp] theorem emit_tov (o : Outputs) (s : State) : (s.emit o).tov = s.tov := rfl
@[simp] theorem emit_cntBadcs (o : Outputs) (s : State) : (s.emit o).cntBadcs = s.cntBadcs := rfl
@[simp] theorem emit_cntShort (o : Outputs) (s : State) : (s.emit o).cntShort = s.cntShort := rfl
@[simp] theorem emit_cntMissing (o : Outputs) (s : State) : (s.emit o).cntMissing = s.cntMissing := rfl
@[simp] theorem emit_cntReset (o : Outputs) (s : State) : (s.emit o).cntReset = s.cntReset := rfl
@[simp] theorem emit_lValid (o : Outputs) (s : State) : (s.emit o).lValid = s.lValid := rfl
@[simp] theorem emit_lHum (o : Outputs) (s : State) : (s.emit o).lHum = s.lHum := rfl
@[simp] theorem emit_lTemp (o : Outputs) (s : State) : (s.emit o).lTemp = s.lTemp := rfl
@[simp] theorem emit_lTov (o : Outputs) (s : State) : (s.emit o).lTov = s.lTov := rfl
@[simp] theorem emit_lStale (o : Outputs) (s : State) : (s.emit o).lStale = s.lStale := rfl
@[simp] theorem emit_wallNow (o : Outputs) (s : State) : (s.emit o).wallNow = s.wallNow := rfl
@[simp] theorem emit_inputs (o : Outputs) (s : State) : (s.emit o).inputs = s.inputs := rfl
@[simp] theorem emit_outputs (o : Outputs) (s : State) : (s.emit o).outputs = o := rfl

/-! ### quiet -/

@[simp] theorem quiet_p (s : State) : s.quiet.p = s.p := rfl
@[simp] theorem quiet_hh (s : State) : s.quiet.hh = s.hh := rfl
@[simp] theorem quiet_hl (s : State) : s.quiet.hl = s.hl := rfl
@[simp] theorem quiet_th (s : State) : s.quiet.th = s.th := rfl
@[simp] theorem quiet_tl (s : State) : s.quiet.tl = s.tl := rfl
@[simp] theorem quiet_cs (s : State) : s.quiet.cs = s.cs := rfl
@[simp] theorem quiet_poison (s : State) : s.quiet.poison = s.poison := rfl
@[simp] theorem quiet_lastRise (s : State) : s.quiet.lastRise = s.lastRise := rfl
@[simp] theorem quiet_riseSeen (s : State) : s.quiet.riseSeen = s.riseSeen := rfl
@[simp] theorem quiet_streak (s : State) : s.quiet.streak = s.streak := rfl
@[simp] theorem quiet_attached (s : State) : s.quiet.attached = s.attached := rfl
@[simp] theorem quiet_cmdErr (s : State) : s.quiet.cmdErr = s.cmdErr := rfl
@[simp] theorem quiet_valid (s : State) : s.quiet.valid = s.valid := rfl
@[simp] theorem quiet_hum (s : State) : s.quiet.hum = s.hum := rfl
@[simp] theorem quiet_temp (s : State) : s.quiet.temp = s.temp := rfl
@[simp] theorem quiet_tov (s : State) : s.quiet.tov = s.tov := rfl
@[simp] theorem quiet_cntBadcs (s : State) : s.quiet.cntBadcs = s.cntBadcs := rfl
@[simp] theorem quiet_cntShort (s : State) : s.quiet.cntShort = s.cntShort := rfl
@[simp] theorem quiet_cntMissing (s : State) : s.quiet.cntMissing = s.cntMissing := rfl
@[simp] theorem quiet_cntReset (s : State) : s.quiet.cntReset = s.cntReset := rfl
@[simp] theorem quiet_lValid (s : State) : s.quiet.lValid = s.lValid := rfl
@[simp] theorem quiet_lHum (s : State) : s.quiet.lHum = s.lHum := rfl
@[simp] theorem quiet_lTemp (s : State) : s.quiet.lTemp = s.lTemp := rfl
@[simp] theorem quiet_lTov (s : State) : s.quiet.lTov = s.lTov := rfl
@[simp] theorem quiet_lStale (s : State) : s.quiet.lStale = s.lStale := rfl
@[simp] theorem quiet_wallNow (s : State) : s.quiet.wallNow = s.wallNow := rfl
@[simp] theorem quiet_inputs (s : State) : s.quiet.inputs = s.inputs := rfl
@[simp] theorem quiet_outputs (s : State) : s.quiet.outputs = {} := rfl

/-! ### respond -/

@[simp] theorem respond_p (w : Word) (s : State) : (s.respond w).p = s.p := rfl
@[simp] theorem respond_hh (w : Word) (s : State) : (s.respond w).hh = s.hh := rfl
@[simp] theorem respond_hl (w : Word) (s : State) : (s.respond w).hl = s.hl := rfl
@[simp] theorem respond_th (w : Word) (s : State) : (s.respond w).th = s.th := rfl
@[simp] theorem respond_tl (w : Word) (s : State) : (s.respond w).tl = s.tl := rfl
@[simp] theorem respond_cs (w : Word) (s : State) : (s.respond w).cs = s.cs := rfl
@[simp] theorem respond_poison (w : Word) (s : State) : (s.respond w).poison = s.poison := rfl
@[simp] theorem respond_lastRise (w : Word) (s : State) : (s.respond w).lastRise = s.lastRise := rfl
@[simp] theorem respond_riseSeen (w : Word) (s : State) : (s.respond w).riseSeen = s.riseSeen := rfl
@[simp] theorem respond_streak (w : Word) (s : State) : (s.respond w).streak = s.streak := rfl
@[simp] theorem respond_attached (w : Word) (s : State) : (s.respond w).attached = s.attached := rfl
@[simp] theorem respond_cmdErr (w : Word) (s : State) : (s.respond w).cmdErr = s.cmdErr := rfl
@[simp] theorem respond_valid (w : Word) (s : State) : (s.respond w).valid = s.valid := rfl
@[simp] theorem respond_hum (w : Word) (s : State) : (s.respond w).hum = s.hum := rfl
@[simp] theorem respond_temp (w : Word) (s : State) : (s.respond w).temp = s.temp := rfl
@[simp] theorem respond_tov (w : Word) (s : State) : (s.respond w).tov = s.tov := rfl
@[simp] theorem respond_cntBadcs (w : Word) (s : State) : (s.respond w).cntBadcs = s.cntBadcs := rfl
@[simp] theorem respond_cntShort (w : Word) (s : State) : (s.respond w).cntShort = s.cntShort := rfl
@[simp] theorem respond_cntMissing (w : Word) (s : State) : (s.respond w).cntMissing = s.cntMissing := rfl
@[simp] theorem respond_cntReset (w : Word) (s : State) : (s.respond w).cntReset = s.cntReset := rfl
@[simp] theorem respond_lValid (w : Word) (s : State) : (s.respond w).lValid = s.lValid := rfl
@[simp] theorem respond_lHum (w : Word) (s : State) : (s.respond w).lHum = s.lHum := rfl
@[simp] theorem respond_lTemp (w : Word) (s : State) : (s.respond w).lTemp = s.lTemp := rfl
@[simp] theorem respond_lTov (w : Word) (s : State) : (s.respond w).lTov = s.lTov := rfl
@[simp] theorem respond_lStale (w : Word) (s : State) : (s.respond w).lStale = s.lStale := rfl
@[simp] theorem respond_wallNow (w : Word) (s : State) : (s.respond w).wallNow = s.wallNow := rfl
@[simp] theorem respond_inputs (w : Word) (s : State) : (s.respond w).inputs = s.inputs := rfl
@[simp] theorem respond_outputs (w : Word) (s : State) : (s.respond w).outputs = { rdData := some w } := rfl

/-! ### noteRise -/

@[simp] theorem noteRise_p (t : Tick) (s : State) : (s.noteRise t).p = s.p := rfl
@[simp] theorem noteRise_hh (t : Tick) (s : State) : (s.noteRise t).hh = s.hh := rfl
@[simp] theorem noteRise_hl (t : Tick) (s : State) : (s.noteRise t).hl = s.hl := rfl
@[simp] theorem noteRise_th (t : Tick) (s : State) : (s.noteRise t).th = s.th := rfl
@[simp] theorem noteRise_tl (t : Tick) (s : State) : (s.noteRise t).tl = s.tl := rfl
@[simp] theorem noteRise_cs (t : Tick) (s : State) : (s.noteRise t).cs = s.cs := rfl
@[simp] theorem noteRise_poison (t : Tick) (s : State) : (s.noteRise t).poison = s.poison := rfl
@[simp] theorem noteRise_lastRise (t : Tick) (s : State) : (s.noteRise t).lastRise = t := rfl
@[simp] theorem noteRise_riseSeen (t : Tick) (s : State) : (s.noteRise t).riseSeen = true := rfl
@[simp] theorem noteRise_streak (t : Tick) (s : State) : (s.noteRise t).streak = s.streak := rfl
@[simp] theorem noteRise_attached (t : Tick) (s : State) : (s.noteRise t).attached = s.attached := rfl
@[simp] theorem noteRise_cmdErr (t : Tick) (s : State) : (s.noteRise t).cmdErr = s.cmdErr := rfl
@[simp] theorem noteRise_valid (t : Tick) (s : State) : (s.noteRise t).valid = s.valid := rfl
@[simp] theorem noteRise_hum (t : Tick) (s : State) : (s.noteRise t).hum = s.hum := rfl
@[simp] theorem noteRise_temp (t : Tick) (s : State) : (s.noteRise t).temp = s.temp := rfl
@[simp] theorem noteRise_tov (t : Tick) (s : State) : (s.noteRise t).tov = s.tov := rfl
@[simp] theorem noteRise_cntBadcs (t : Tick) (s : State) : (s.noteRise t).cntBadcs = s.cntBadcs := rfl
@[simp] theorem noteRise_cntShort (t : Tick) (s : State) : (s.noteRise t).cntShort = s.cntShort := rfl
@[simp] theorem noteRise_cntMissing (t : Tick) (s : State) : (s.noteRise t).cntMissing = s.cntMissing := rfl
@[simp] theorem noteRise_cntReset (t : Tick) (s : State) : (s.noteRise t).cntReset = s.cntReset := rfl
@[simp] theorem noteRise_lValid (t : Tick) (s : State) : (s.noteRise t).lValid = s.lValid := rfl
@[simp] theorem noteRise_lHum (t : Tick) (s : State) : (s.noteRise t).lHum = s.lHum := rfl
@[simp] theorem noteRise_lTemp (t : Tick) (s : State) : (s.noteRise t).lTemp = s.lTemp := rfl
@[simp] theorem noteRise_lTov (t : Tick) (s : State) : (s.noteRise t).lTov = s.lTov := rfl
@[simp] theorem noteRise_lStale (t : Tick) (s : State) : (s.noteRise t).lStale = s.lStale := rfl
@[simp] theorem noteRise_wallNow (t : Tick) (s : State) : (s.noteRise t).wallNow = s.wallNow := rfl
@[simp] theorem noteRise_inputs (t : Tick) (s : State) : (s.noteRise t).inputs = s.inputs := rfl
@[simp] theorem noteRise_outputs (t : Tick) (s : State) : (s.noteRise t).outputs = s.outputs := rfl

/-! ### startFrame -/

@[simp] theorem startFrame_p (s : State) : s.startFrame.p = -2 := rfl
@[simp] theorem startFrame_hh (s : State) : s.startFrame.hh = 0#8 := rfl
@[simp] theorem startFrame_hl (s : State) : s.startFrame.hl = 0#8 := rfl
@[simp] theorem startFrame_th (s : State) : s.startFrame.th = 0#8 := rfl
@[simp] theorem startFrame_tl (s : State) : s.startFrame.tl = 0#8 := rfl
@[simp] theorem startFrame_cs (s : State) : s.startFrame.cs = 0#8 := rfl
@[simp] theorem startFrame_poison (s : State) : s.startFrame.poison = false := rfl
@[simp] theorem startFrame_lastRise (s : State) : s.startFrame.lastRise = s.lastRise := rfl
@[simp] theorem startFrame_riseSeen (s : State) : s.startFrame.riseSeen = s.riseSeen := rfl
@[simp] theorem startFrame_streak (s : State) : s.startFrame.streak = s.streak := rfl
@[simp] theorem startFrame_attached (s : State) : s.startFrame.attached = s.attached := rfl
@[simp] theorem startFrame_cmdErr (s : State) : s.startFrame.cmdErr = s.cmdErr := rfl
@[simp] theorem startFrame_valid (s : State) : s.startFrame.valid = s.valid := rfl
@[simp] theorem startFrame_hum (s : State) : s.startFrame.hum = s.hum := rfl
@[simp] theorem startFrame_temp (s : State) : s.startFrame.temp = s.temp := rfl
@[simp] theorem startFrame_tov (s : State) : s.startFrame.tov = s.tov := rfl
@[simp] theorem startFrame_cntBadcs (s : State) : s.startFrame.cntBadcs = s.cntBadcs := rfl
@[simp] theorem startFrame_cntShort (s : State) : s.startFrame.cntShort = s.cntShort := rfl
@[simp] theorem startFrame_cntMissing (s : State) : s.startFrame.cntMissing = s.cntMissing := rfl
@[simp] theorem startFrame_cntReset (s : State) : s.startFrame.cntReset = s.cntReset := rfl
@[simp] theorem startFrame_lValid (s : State) : s.startFrame.lValid = s.lValid := rfl
@[simp] theorem startFrame_lHum (s : State) : s.startFrame.lHum = s.lHum := rfl
@[simp] theorem startFrame_lTemp (s : State) : s.startFrame.lTemp = s.lTemp := rfl
@[simp] theorem startFrame_lTov (s : State) : s.startFrame.lTov = s.lTov := rfl
@[simp] theorem startFrame_lStale (s : State) : s.startFrame.lStale = s.lStale := rfl
@[simp] theorem startFrame_wallNow (s : State) : s.startFrame.wallNow = s.wallNow := rfl
@[simp] theorem startFrame_inputs (s : State) : s.startFrame.inputs = s.inputs := rfl
@[simp] theorem startFrame_outputs (s : State) : s.startFrame.outputs = s.outputs := rfl

/-! ### publish -/

@[simp] theorem publish_p (s : State) : s.publish.p = s.p := rfl
@[simp] theorem publish_hh (s : State) : s.publish.hh = s.hh := rfl
@[simp] theorem publish_hl (s : State) : s.publish.hl = s.hl := rfl
@[simp] theorem publish_th (s : State) : s.publish.th = s.th := rfl
@[simp] theorem publish_tl (s : State) : s.publish.tl = s.tl := rfl
@[simp] theorem publish_cs (s : State) : s.publish.cs = s.cs := rfl
@[simp] theorem publish_poison (s : State) : s.publish.poison = s.poison := rfl
@[simp] theorem publish_lastRise (s : State) : s.publish.lastRise = s.lastRise := rfl
@[simp] theorem publish_riseSeen (s : State) : s.publish.riseSeen = s.riseSeen := rfl
@[simp] theorem publish_streak (s : State) : s.publish.streak = s.streak := rfl
@[simp] theorem publish_attached (s : State) : s.publish.attached = s.attached := rfl
@[simp] theorem publish_cmdErr (s : State) : s.publish.cmdErr = s.cmdErr := rfl
@[simp] theorem publish_valid (s : State) : s.publish.valid = true := rfl
@[simp] theorem publish_hum (s : State) : s.publish.hum = humidityOf s.hh s.hl := rfl
@[simp] theorem publish_temp (s : State) : s.publish.temp = temperatureOf s.th s.tl := rfl
@[simp] theorem publish_tov (s : State) : s.publish.tov = s.wallNow := rfl
@[simp] theorem publish_cntBadcs (s : State) : s.publish.cntBadcs = s.cntBadcs := rfl
@[simp] theorem publish_cntShort (s : State) : s.publish.cntShort = s.cntShort := rfl
@[simp] theorem publish_cntMissing (s : State) : s.publish.cntMissing = s.cntMissing := rfl
@[simp] theorem publish_cntReset (s : State) : s.publish.cntReset = s.cntReset := rfl
@[simp] theorem publish_lValid (s : State) : s.publish.lValid = s.lValid := rfl
@[simp] theorem publish_lHum (s : State) : s.publish.lHum = s.lHum := rfl
@[simp] theorem publish_lTemp (s : State) : s.publish.lTemp = s.lTemp := rfl
@[simp] theorem publish_lTov (s : State) : s.publish.lTov = s.lTov := rfl
@[simp] theorem publish_lStale (s : State) : s.publish.lStale = s.lStale := rfl
@[simp] theorem publish_wallNow (s : State) : s.publish.wallNow = s.wallNow := rfl
@[simp] theorem publish_inputs (s : State) : s.publish.inputs = s.inputs := rfl
@[simp] theorem publish_outputs (s : State) : s.publish.outputs = s.outputs := rfl

/-! ### loadLatch -/

@[simp] theorem loadLatch_p (s : State) : s.loadLatch.p = s.p := rfl
@[simp] theorem loadLatch_hh (s : State) : s.loadLatch.hh = s.hh := rfl
@[simp] theorem loadLatch_hl (s : State) : s.loadLatch.hl = s.hl := rfl
@[simp] theorem loadLatch_th (s : State) : s.loadLatch.th = s.th := rfl
@[simp] theorem loadLatch_tl (s : State) : s.loadLatch.tl = s.tl := rfl
@[simp] theorem loadLatch_cs (s : State) : s.loadLatch.cs = s.cs := rfl
@[simp] theorem loadLatch_poison (s : State) : s.loadLatch.poison = s.poison := rfl
@[simp] theorem loadLatch_lastRise (s : State) : s.loadLatch.lastRise = s.lastRise := rfl
@[simp] theorem loadLatch_riseSeen (s : State) : s.loadLatch.riseSeen = s.riseSeen := rfl
@[simp] theorem loadLatch_streak (s : State) : s.loadLatch.streak = s.streak := rfl
@[simp] theorem loadLatch_attached (s : State) : s.loadLatch.attached = s.attached := rfl
@[simp] theorem loadLatch_cmdErr (s : State) : s.loadLatch.cmdErr = s.cmdErr := rfl
@[simp] theorem loadLatch_valid (s : State) : s.loadLatch.valid = s.valid := rfl
@[simp] theorem loadLatch_hum (s : State) : s.loadLatch.hum = s.hum := rfl
@[simp] theorem loadLatch_temp (s : State) : s.loadLatch.temp = s.temp := rfl
@[simp] theorem loadLatch_tov (s : State) : s.loadLatch.tov = s.tov := rfl
@[simp] theorem loadLatch_cntBadcs (s : State) : s.loadLatch.cntBadcs = s.cntBadcs := rfl
@[simp] theorem loadLatch_cntShort (s : State) : s.loadLatch.cntShort = s.cntShort := rfl
@[simp] theorem loadLatch_cntMissing (s : State) : s.loadLatch.cntMissing = s.cntMissing := rfl
@[simp] theorem loadLatch_cntReset (s : State) : s.loadLatch.cntReset = s.cntReset := rfl
@[simp] theorem loadLatch_lValid (s : State) : s.loadLatch.lValid = s.valid := rfl
@[simp] theorem loadLatch_lHum (s : State) : s.loadLatch.lHum = s.hum := rfl
@[simp] theorem loadLatch_lTemp (s : State) : s.loadLatch.lTemp = s.temp := rfl
@[simp] theorem loadLatch_lTov (s : State) : s.loadLatch.lTov = s.tov := rfl
@[simp] theorem loadLatch_lStale (s : State) : s.loadLatch.lStale = stalenessOf s := rfl
@[simp] theorem loadLatch_wallNow (s : State) : s.loadLatch.wallNow = s.wallNow := rfl
@[simp] theorem loadLatch_inputs (s : State) : s.loadLatch.inputs = s.inputs := rfl
@[simp] theorem loadLatch_outputs (s : State) : s.loadLatch.outputs = s.outputs := rfl

end Sys2Proof.Machine.State
end

