-- ==== Sys2Proof/Laws/Ops.lean ====
section
/-! SUPPORT. For each shared operation, once, everything it can do; later proofs cite these and do not unfold it. -/

namespace Sys2Proof.Machine

open Sys2Proof

/-! ### Operand forms -/

/-- At 32 bits a TICK field is used unchanged (R83). -/
@[simp] theorem tickOperand_self (field : BitVec 32) : (tickOperand field : Tick) = field := by
  simp [tickOperand]

/-- The two words of a 64-bit value make it up again (R67). -/
theorem hiWord_loWord (v : Wall) : v.toNat = (hiWord v).toNat * 2 ^ 32 + (loWord v).toNat := by
  have := v.isLt
  simp only [hiWord, loWord, BitVec.extractLsb'_toNat, Nat.shiftRight_eq_div_pow]
  omega

/-! ### The frame -/

/-- The shift-in, as a number (R124). -/
theorem shiftIn_toNat (f : Byte) (b : Bool) : (shiftIn f b).toNat = (2 * f.toNat + b.toNat) % 256 := by
  revert f b; decide

/-- The shift-in, bit by bit: the new bit at 0, every other bit from the one below it (R64, R124). -/
theorem shiftIn_getLsbD (f : Byte) (b : Bool) (k : Nat) (hk : k < 8) :
    (shiftIn f b).getLsbD k = if k = 0 then b else f.getLsbD (k - 1) := by
  have h : ∀ (f : Byte) (b : Bool) (k : Fin 8),
      (shiftIn f b).getLsbD k = if k.val = 0 then b else f.getLsbD (k.val - 1) := by decide
  exact h f b ⟨k, hk⟩

/-- Routing writes one field of the frame, by position, or none (R123, R128). -/
theorem routeBit_cases (b : Bool) (s : State) :
    (s.p < 0 ∧ s.routeBit b = s)
    ∨ (0 ≤ s.p ∧ s.p < 8 ∧ s.routeBit b = { s with hh := shiftIn s.hh b })
    ∨ (8 ≤ s.p ∧ s.p < 16 ∧ s.routeBit b = { s with hl := shiftIn s.hl b })
    ∨ (16 ≤ s.p ∧ s.p < 24 ∧ s.routeBit b = { s with th := shiftIn s.th b })
    ∨ (24 ≤ s.p ∧ s.p < 32 ∧ s.routeBit b = { s with tl := shiftIn s.tl b })
    ∨ (32 ≤ s.p ∧ s.p < 40 ∧ s.routeBit b = { s with cs := shiftIn s.cs b })
    ∨ (40 ≤ s.p ∧ s.routeBit b = s) := by
  unfold State.routeBit
  split_ifs <;> simp <;> omega

/-! Routing writes the fields of the frame alone. -/

@[simp] theorem State.routeBit_p (b : Bool) (s : State) : (s.routeBit b).p = s.p := by
  unfold State.routeBit; split_ifs <;> rfl
@[simp] theorem State.routeBit_poison (b : Bool) (s : State) : (s.routeBit b).poison = s.poison := by
  unfold State.routeBit; split_ifs <;> rfl
@[simp] theorem State.routeBit_lastRise (b : Bool) (s : State) : (s.routeBit b).lastRise = s.lastRise := by
  unfold State.routeBit; split_ifs <;> rfl
@[simp] theorem State.routeBit_riseSeen (b : Bool) (s : State) : (s.routeBit b).riseSeen = s.riseSeen := by
  unfold State.routeBit; split_ifs <;> rfl
@[simp] theorem State.routeBit_streak (b : Bool) (s : State) : (s.routeBit b).streak = s.streak := by
  unfold State.routeBit; split_ifs <;> rfl
@[simp] theorem State.routeBit_attached (b : Bool) (s : State) : (s.routeBit b).attached = s.attached := by
  unfold State.routeBit; split_ifs <;> rfl
@[simp] theorem State.routeBit_cmdErr (b : Bool) (s : State) : (s.routeBit b).cmdErr = s.cmdErr := by
  unfold State.routeBit; split_ifs <;> rfl
@[simp] theorem State.routeBit_valid (b : Bool) (s : State) : (s.routeBit b).valid = s.valid := by
  unfold State.routeBit; split_ifs <;> rfl
@[simp] theorem State.routeBit_hum (b : Bool) (s : State) : (s.routeBit b).hum = s.hum := by
  unfold State.routeBit; split_ifs <;> rfl
@[simp] theorem State.routeBit_temp (b : Bool) (s : State) : (s.routeBit b).temp = s.temp := by
  unfold State.routeBit; split_ifs <;> rfl
@[simp] theorem State.routeBit_tov (b : Bool) (s : State) : (s.routeBit b).tov = s.tov := by
  unfold State.routeBit; split_ifs <;> rfl
@[simp] theorem State.routeBit_cntBadcs (b : Bool) (s : State) : (s.routeBit b).cntBadcs = s.cntBadcs := by
  unfold State.routeBit; split_ifs <;> rfl
@[simp] theorem State.routeBit_cntShort (b : Bool) (s : State) : (s.routeBit b).cntShort = s.cntShort := by
  unfold State.routeBit; split_ifs <;> rfl
@[simp] theorem State.routeBit_cntMissing (b : Bool) (s : State) : (s.routeBit b).cntMissing = s.cntMissing := by
  unfold State.routeBit; split_ifs <;> rfl
@[simp] theorem State.routeBit_cntReset (b : Bool) (s : State) : (s.routeBit b).cntReset = s.cntReset := by
  unfold State.routeBit; split_ifs <;> rfl
@[simp] theorem State.routeBit_lValid (b : Bool) (s : State) : (s.routeBit b).lValid = s.lValid := by
  unfold State.routeBit; split_ifs <;> rfl
@[simp] theorem State.routeBit_lHum (b : Bool) (s : State) : (s.routeBit b).lHum = s.lHum := by
  unfold State.routeBit; split_ifs <;> rfl
@[simp] theorem State.routeBit_lTemp (b : Bool) (s : State) : (s.routeBit b).lTemp = s.lTemp := by
  unfold State.routeBit; split_ifs <;> rfl
@[simp] theorem State.routeBit_lTov (b : Bool) (s : State) : (s.routeBit b).lTov = s.lTov := by
  unfold State.routeBit; split_ifs <;> rfl
@[simp] theorem State.routeBit_lStale (b : Bool) (s : State) : (s.routeBit b).lStale = s.lStale := by
  unfold State.routeBit; split_ifs <;> rfl
@[simp] theorem State.routeBit_wallNow (b : Bool) (s : State) : (s.routeBit b).wallNow = s.wallNow := by
  unfold State.routeBit; split_ifs <;> rfl
@[simp] theorem State.routeBit_inputs (b : Bool) (s : State) : (s.routeBit b).inputs = s.inputs := by
  unfold State.routeBit; split_ifs <;> rfl
@[simp] theorem State.routeBit_outputs (b : Bool) (s : State) : (s.routeBit b).outputs = s.outputs := by
  unfold State.routeBit; split_ifs <;> rfl

/-! ### Validation -/

/-- A frame passes exactly when it is not poisoned and its sum is its checksum (R150). -/
theorem framePasses_iff (s : State) :
    framePasses s = true ↔ s.poison = false ∧ s.hh + s.hl + s.th + s.tl = s.cs := by
  unfold framePasses checksumOf
  cases s.poison <;> simp

/-- Validation publishes, or counts a bad checksum and does nothing else (R150, R154). -/
theorem validate_cases (s : State) :
    (framePasses s = true ∧ s.validate = s.publish)
    ∨ (framePasses s = false ∧ s.validate = { s with cntBadcs := satInc s.cntBadcs }) := by
  unfold State.validate
  cases h : framePasses s <;> simp

/-! Validation writes the Reading Store or CNT_BADCS alone. -/

@[simp] theorem State.validate_p (s : State) : s.validate.p = s.p := by
  unfold State.validate; split_ifs <;> rfl
@[simp] theorem State.validate_hh (s : State) : s.validate.hh = s.hh := by
  unfold State.validate; split_ifs <;> rfl
@[simp] theorem State.validate_hl (s : State) : s.validate.hl = s.hl := by
  unfold State.validate; split_ifs <;> rfl
@[simp] theorem State.validate_th (s : State) : s.validate.th = s.th := by
  unfold State.validate; split_ifs <;> rfl
@[simp] theorem State.validate_tl (s : State) : s.validate.tl = s.tl := by
  unfold State.validate; split_ifs <;> rfl
@[simp] theorem State.validate_cs (s : State) : s.validate.cs = s.cs := by
  unfold State.validate; split_ifs <;> rfl
@[simp] theorem State.validate_poison (s : State) : s.validate.poison = s.poison := by
  unfold State.validate; split_ifs <;> rfl
@[simp] theorem State.validate_lastRise (s : State) : s.validate.lastRise = s.lastRise := by
  unfold State.validate; split_ifs <;> rfl
@[simp] theorem State.validate_riseSeen (s : State) : s.validate.riseSeen = s.riseSeen := by
  unfold State.validate; split_ifs <;> rfl
@[simp] theorem State.validate_streak (s : State) : s.validate.streak = s.streak := by
  unfold State.validate; split_ifs <;> rfl
@[simp] theorem State.validate_attached (s : State) : s.validate.attached = s.attached := by
  unfold State.validate; split_ifs <;> rfl
@[simp] theorem State.validate_cmdErr (s : State) : s.validate.cmdErr = s.cmdErr := by
  unfold State.validate; split_ifs <;> rfl
@[simp] theorem State.validate_cntShort (s : State) : s.validate.cntShort = s.cntShort := by
  unfold State.validate; split_ifs <;> rfl
@[simp] theorem State.validate_cntMissing (s : State) : s.validate.cntMissing = s.cntMissing := by
  unfold State.validate; split_ifs <;> rfl
@[simp] theorem State.validate_cntReset (s : State) : s.validate.cntReset = s.cntReset := by
  unfold State.validate; split_ifs <;> rfl
@[simp] theorem State.validate_lValid (s : State) : s.validate.lValid = s.lValid := by
  unfold State.validate; split_ifs <;> rfl
@[simp] theorem State.validate_lHum (s : State) : s.validate.lHum = s.lHum := by
  unfold State.validate; split_ifs <;> rfl
@[simp] theorem State.validate_lTemp (s : State) : s.validate.lTemp = s.lTemp := by
  unfold State.validate; split_ifs <;> rfl
@[simp] theorem State.validate_lTov (s : State) : s.validate.lTov = s.lTov := by
  unfold State.validate; split_ifs <;> rfl
@[simp] theorem State.validate_lStale (s : State) : s.validate.lStale = s.lStale := by
  unfold State.validate; split_ifs <;> rfl
@[simp] theorem State.validate_wallNow (s : State) : s.validate.wallNow = s.wallNow := by
  unfold State.validate; split_ifs <;> rfl
@[simp] theorem State.validate_inputs (s : State) : s.validate.inputs = s.inputs := by
  unfold State.validate; split_ifs <;> rfl
@[simp] theorem State.validate_outputs (s : State) : s.validate.outputs = s.outputs := by
  unfold State.validate; split_ifs <;> rfl

/-- The magnitude of a temperature has 15 bits (R152). -/
theorem magnitudeOf_toNat (th tl : Byte) :
    (magnitudeOf th tl).toNat = 256 * (th.toNat % 128) + tl.toNat := by
  have h : ∀ th : Byte, (th &&& 0x7F#8).toNat = th.toNat % 128 := by decide
  have := tl.isLt
  simp only [magnitudeOf, BitVec.toNat_append, h]
  rw [← Nat.shiftLeft_add_eq_or_of_lt this, Nat.shiftLeft_eq]
  omega

/-- The pulse taken at P = 39 goes into CS (R123) and leaves P at 40. -/
theorem takePulse_last (c : Pulse) (s : State) (hp : s.p = 39) :
    takePulse c s = { s with cs := shiftIn s.cs (bitval c), poison := s.poison || isCorrupt c, p := 40 } := by
  have e : s.routeBit (bitval c) = { s with cs := shiftIn s.cs (bitval c) } := by
    simp [State.routeBit, hp]
  simp [takePulse, e, hp]

/-- A frame that completes with the pulse taken: DISARM and STREAK cleared, and a publish or a bad checksum (R127). -/
theorem completeFrame_cases (s : State) :
    (framePasses s = true ∧ completeFrame s = { s with
      streak := 0#2, outputs := { disarm := true }, hum := humidityOf s.hh s.hl, temp := temperatureOf s.th s.tl,
      tov := s.wallNow, valid := true })
    ∨ (framePasses s = false ∧ completeFrame s = { s with
        streak := 0#2, outputs := { disarm := true }, cntBadcs := satInc s.cntBadcs }) := by
  obtain ⟨h, e⟩ | ⟨h, e⟩ := validate_cases { s with streak := 0#2, outputs := { disarm := true } }
  · exact Or.inl ⟨h, e⟩
  · exact Or.inr ⟨h, e⟩

/-! ### The meanings that branch -/

/-- RISE: detached, a start condition, or any other rise (R120). -/
theorem execRise_cases (k : BitVec 32) (s : State) :
    (s.attached = false ∧ execRise k s = .next s.quiet)
    ∨ (s.attached = true ∧ isStart k s = true ∧ execRise k s = .next (s.noteRise k).startFrame.quiet)
    ∨ (s.attached = true ∧ isStart k s = false ∧ execRise k s = .next (s.noteRise k).quiet) := by
  unfold execRise acceptRise
  cases s.attached <;> cases h : isStart k s <;> simp [h]

/-- The start condition (R121). -/
theorem isStart_iff (k : Tick) (s : State) :
    isStart k s = true ↔ s.riseSeen = false ∨ interval k s.lastRise > 250000 := by
  simp [isStart, Config.tStart]

/-- FALL: detached, idle, a pulse that does not complete the frame, or the completing one (R122). -/
theorem execFall_cases (k : BitVec 32) (s : State) :
    (s.attached = false ∧ execFall k s = .next s.quiet)
    ∨ (s.attached = true ∧ 40 ≤ s.p ∧ execFall k s = .next s.quiet)
    ∨ (s.attached = true ∧ s.p < 40 ∧ s.p ≠ 39
        ∧ execFall k s = .next (takePulse (classify (interval k s.lastRise)) s).quiet)
    ∨ (s.attached = true ∧ s.p = 39
        ∧ execFall k s = .next (completeFrame (takePulse (classify (interval k s.lastRise)) s))) := by
  unfold execFall acceptFall
  simp only [Config.pIdle, Config.frameBits, tickOperand_self]
  cases s.attached <;> simp
  split_ifs <;> simp <;> omega

/-- TIMEOUT: detached, or the branch of the policy that P selects (R170). -/
theorem execTimeout_cases (k : BitVec 32) (s : State) :
    (s.attached = false ∧ execTimeout k s = .next s.quiet)
    ∨ (s.attached = true ∧ s.p < 8 ∧ execTimeout k s = .next (missingMessage s))
    ∨ (s.attached = true ∧ 8 ≤ s.p ∧ s.p < 39 ∧ execTimeout k s = .next (shortMessage s))
    ∨ (s.attached = true ∧ 39 ≤ s.p ∧ execTimeout k s = .next (fullMessage s)) := by
  unfold execTimeout acceptTimeout
  cases s.attached
  · simp
  · rcases lt_or_ge s.p 8 with h | h
    · simp [h]
    · rcases lt_or_ge s.p 39 with h' | h' <;> simp [h, h', not_lt.mpr]

/-- The missing-message branch: the streak grows, or it escalates (R171, R172). -/
theorem missingMessage_cases (s : State) :
    (s.streak.toNat < 2 ∧ missingMessage s = { s with
      cntMissing := satInc s.cntMissing, streak := s.streak + 1#2, outputs := { disarm := true } })
    ∨ (2 ≤ s.streak.toNat ∧ missingMessage s = { s with
        cntMissing := satInc s.cntMissing, streak := 0#2, cntReset := satInc s.cntReset,
        outputs := { disarm := true, pwrcyc := true } }) := by
  unfold missingMessage
  rcases lt_or_ge s.streak.toNat 2 with h | h
  · exact Or.inl ⟨h, if_neg (by simp only [Config.maxNoResponse]; omega)⟩
  · exact Or.inr ⟨h, if_pos (by simp only [Config.maxNoResponse]; omega)⟩

/-- CLEANUP: attached or not (R191). -/
theorem execCleanup_cases (k : BitVec 32) (s : State) :
    (s.attached = true ∧ execCleanup k s = .next { s.emit { disarm := true } with attached := false })
    ∨ (s.attached = false ∧ execCleanup k s = .next s.quiet) := by
  unfold execCleanup
  cases s.attached <;> simp

/-! ### The ports -/

/-- What the ports present (R71, R72, R80, R270): nothing left, a reset cycle, a read, a command, or an idle cycle. -/
theorem present_cases (s : State) :
    (s.inputs = [] ∧ present s = .settled s.quiet)
    ∨ ∃ c rest, s.inputs = c :: rest ∧
      ((c.rst = true ∧ present s = .settled (resetCycle c rest))
      ∨ (c.rst = false ∧ c.rdEn = true ∧ present s = .operation (decodeRead c.rdAddr)
            { s with inputs := afterRead c rest, wallNow := c.wallNow })
      ∨ (c.rst = false ∧ c.rdEn = false ∧ c.cmdValid = true ∧ present s = .operation (decodeCmd c.cmdWord)
            { s with inputs := rest, wallNow := c.wallNow })
      ∨ (c.rst = false ∧ c.rdEn = false ∧ c.cmdValid = false
          ∧ present s = .settled { s.quiet with inputs := rest, wallNow := c.wallNow })) := by
  unfold present
  cases h : s.inputs with
  | nil => simp
  | cons c rest =>
    refine Or.inr ⟨c, rest, rfl, ?_⟩
    cases hr : c.rst <;> cases hd : c.rdEn <;> cases hc : c.cmdValid <;> simp [hr, hd, hc]

/-- A step answers what the ports settle, or what the operation they present answers. -/
theorem step_of_present (s : State) :
    (∃ t, present s = .settled t ∧ step s = .next t) ∨ ∃ i t, present s = .operation i t ∧ step s = exec i t := by
  unfold step
  cases present s with
  | settled t => exact Or.inl ⟨t, rfl, rfl⟩
  | operation i t => exact Or.inr ⟨i, t, rfl, rfl⟩

end Sys2Proof.Machine
end

