-- ==== Sys2Proof/Laws/Exec.lean ====
section
/-! SUPPORT. What an operation can do, said once: every whole-machine property is a case analysis over `exec_cases`. -/

namespace Sys2Proof.Machine

open Sys2Proof

/-- A read of the read port other than SNAP. -/
def isPlainRead : Instr → Bool
  | .rdLHum | .rdLTemp | .rdLTovLo | .rdLTovHi | .rdLStaleLo | .rdLStaleHi => true
  | .rdCntBadcs | .rdCntShort | .rdCntMissing | .rdCntReset => true
  | .rdStatus | .rdFrameData | .rdFrameCs | .rdReserved _ => true
  | .rdSnap => false
  | .fall _ | .rise _ | .timeout _ | .attach _ | .cleanup _ => false
  | .rsvCmd3 _ | .rsvCmd4To7 _ _ | .rsvCmdAToB _ _ | .rsvCmdCToF _ _ => false

/-- A command of a reserved kind. -/
def isReservedCmd : Instr → Bool
  | .rsvCmd3 _ | .rsvCmd4To7 _ _ | .rsvCmdAToB _ _ | .rsvCmdCToF _ _ => true
  | .fall _ | .rise _ | .timeout _ | .attach _ | .cleanup _ => false
  | .rdSnap | .rdLHum | .rdLTemp | .rdLTovLo | .rdLTovHi | .rdLStaleLo | .rdLStaleHi => false
  | .rdCntBadcs | .rdCntShort | .rdCntMissing | .rdCntReset => false
  | .rdStatus | .rdFrameData | .rdFrameCs | .rdReserved _ => false

/-- A next state of `exec` is one of these, and the operation is the one named. -/
inductive ExecCase (s : State) : Instr → State → Prop where
  /-- RISE while detached (R192). -/
  | riseDetached (k) (h : s.attached = false) : ExecCase s (.rise k) s.quiet
  /-- A start condition (R121). -/
  | riseStart (k) (h : s.attached = true) (hs : isStart k s = true) :
      ExecCase s (.rise k) (s.noteRise k).startFrame.quiet
  /-- Any other accepted RISE (R120). -/
  | riseOther (k) (h : s.attached = true) (hs : isStart k s = false) : ExecCase s (.rise k) (s.noteRise k).quiet
  /-- FALL while detached (R192). -/
  | fallDetached (k) (h : s.attached = false) : ExecCase s (.fall k) s.quiet
  /-- FALL while idle (R126). -/
  | fallIdle (k) (h : s.attached = true) (hp : 40 ≤ s.p) : ExecCase s (.fall k) s.quiet
  /-- A FALL that does not complete the frame (R122). -/
  | fallBit (k) (h : s.attached = true) (hp : s.p < 40) (hn : s.p ≠ 39) :
      ExecCase s (.fall k) (takePulse (classify (interval k s.lastRise)) s).quiet
  /-- The completing FALL (R127). -/
  | fallLast (k) (h : s.attached = true) (hp : s.p = 39) :
      ExecCase s (.fall k) (completeFrame (takePulse (classify (interval k s.lastRise)) s))
  /-- TIMEOUT while detached (R192). -/
  | timeoutDetached (k) (h : s.attached = false) : ExecCase s (.timeout k) s.quiet
  /-- A missing message (R171, R172). -/
  | timeoutMissing (k) (h : s.attached = true) (hp : s.p < 8) : ExecCase s (.timeout k) (missingMessage s)
  /-- A short message (R173). -/
  | timeoutShort (k) (h : s.attached = true) (hp : 8 ≤ s.p) (hq : s.p < 39) : ExecCase s (.timeout k) (shortMessage s)
  /-- A fully received message (R174). -/
  | timeoutFull (k) (h : s.attached = true) (hp : 39 ≤ s.p) : ExecCase s (.timeout k) (fullMessage s)
  /-- ATTACH (R190). -/
  | attach (k) : ExecCase s (.attach k) { s.quiet with attached := true }
  /-- CLEANUP while attached (R191). -/
  | cleanup (k) (h : s.attached = true) :
      ExecCase s (.cleanup k) { s.emit { disarm := true } with attached := false }
  /-- CLEANUP while detached (R191). -/
  | cleanupDetached (k) (h : s.attached = false) : ExecCase s (.cleanup k) s.quiet
  /-- A reserved kind (R193). -/
  | reserved (i) (h : isReservedCmd i = true) : ExecCase s i s.noteReserved
  /-- SNAP (R210). -/
  | snap : ExecCase s .rdSnap (s.loadLatch.respond (zextFlag s.valid))
  /-- Any other read (R70). -/
  | plainRead (i) (w : Word) (h : isPlainRead i = true) : ExecCase s i (s.respond w)

/-- Everything an operation can do (one case each; the operation and its guard are in the case). -/
theorem exec_cases {i : Instr} {s u : State} (h : exec i s = .next u) : ExecCase s i u := by
  cases i with
  | fall k =>
    simp only [exec] at h
    obtain ⟨ha, e⟩ | ⟨ha, hp, e⟩ | ⟨ha, hp, hn, e⟩ | ⟨ha, hp, e⟩ := execFall_cases k s <;>
      (rw [e] at h; injection h with h; subst h)
    · exact .fallDetached k ha
    · exact .fallIdle k ha hp
    · exact .fallBit k ha hp hn
    · exact .fallLast k ha hp
  | rise k =>
    simp only [exec] at h
    obtain ⟨ha, e⟩ | ⟨ha, hs, e⟩ | ⟨ha, hs, e⟩ := execRise_cases k s <;>
      (rw [e] at h; injection h with h; subst h)
    · exact .riseDetached k ha
    · exact .riseStart k ha hs
    · exact .riseOther k ha hs
  | timeout k =>
    simp only [exec] at h
    obtain ⟨ha, e⟩ | ⟨ha, hp, e⟩ | ⟨ha, hp, hq, e⟩ | ⟨ha, hp, e⟩ := execTimeout_cases k s <;>
      (rw [e] at h; injection h with h; subst h)
    · exact .timeoutDetached k ha
    · exact .timeoutMissing k ha hp
    · exact .timeoutShort k ha hp hq
    · exact .timeoutFull k ha hp
  | attach k => injection h with h; subst h; exact .attach k
  | cleanup k =>
    simp only [exec] at h
    obtain ⟨ha, e⟩ | ⟨ha, e⟩ := execCleanup_cases k s <;> (rw [e] at h; injection h with h; subst h)
    · exact .cleanup k ha
    · exact .cleanupDetached k ha
  | rsvCmd3 => injection h with h; subst h; exact .reserved _ rfl
  | rsvCmd4To7 => injection h with h; subst h; exact .reserved _ rfl
  | rsvCmdAToB => injection h with h; subst h; exact .reserved _ rfl
  | rsvCmdCToF => injection h with h; subst h; exact .reserved _ rfl
  | rdSnap => injection h with h; subst h; exact .snap
  | rdLHum => injection h with h; subst h; exact .plainRead _ _ rfl
  | rdLTemp => injection h with h; subst h; exact .plainRead _ _ rfl
  | rdLTovLo => injection h with h; subst h; exact .plainRead _ _ rfl
  | rdLTovHi => injection h with h; subst h; exact .plainRead _ _ rfl
  | rdLStaleLo => injection h with h; subst h; exact .plainRead _ _ rfl
  | rdLStaleHi => injection h with h; subst h; exact .plainRead _ _ rfl
  | rdCntBadcs => injection h with h; subst h; exact .plainRead _ _ rfl
  | rdCntShort => injection h with h; subst h; exact .plainRead _ _ rfl
  | rdCntMissing => injection h with h; subst h; exact .plainRead _ _ rfl
  | rdCntReset => injection h with h; subst h; exact .plainRead _ _ rfl
  | rdStatus => injection h with h; subst h; exact .plainRead _ _ rfl
  | rdFrameData => injection h with h; subst h; exact .plainRead _ _ rfl
  | rdFrameCs => injection h with h; subst h; exact .plainRead _ _ rfl
  | rdReserved => injection h with h; subst h; exact .plainRead _ _ rfl

/-- No operation touches what is still to be presented at the ports, or the wall clock (R245). -/
theorem exec_keeps_ports {i : Instr} {s u : State} (h : exec i s = .next u) :
    u.inputs = s.inputs ∧ u.wallNow = s.wallNow := by
  cases exec_cases h with
  | timeoutMissing => obtain ⟨-, e⟩ | ⟨-, e⟩ := missingMessage_cases s <;> simp [e]
  | _ => simp [takePulse, completeFrame, shortMessage, fullMessage, State.noteReserved]

/-! ### Steps and runs -/

/-- Everything a step can do: idle at the end of the cycles, a reset cycle, a read, a command, or an idle cycle. -/
theorem step_cases {s t : State} (h : step s = .next t) :
    (s.inputs = [] ∧ t = s.quiet)
    ∨ ∃ c rest, s.inputs = c :: rest ∧
      ((c.rst = true ∧ t = resetCycle c rest)
      ∨ (c.rst = false ∧ c.rdEn = true
          ∧ exec (decodeRead c.rdAddr) { s with inputs := afterRead c rest, wallNow := c.wallNow } = .next t)
      ∨ (c.rst = false ∧ c.rdEn = false ∧ c.cmdValid = true
          ∧ exec (decodeCmd c.cmdWord) { s with inputs := rest, wallNow := c.wallNow } = .next t)
      ∨ (c.rst = false ∧ c.rdEn = false ∧ c.cmdValid = false
          ∧ t = { s.quiet with inputs := rest, wallNow := c.wallNow })) := by
  unfold step at h
  obtain ⟨h0, e⟩ | ⟨c, rest, h0, ⟨h1, e⟩ | ⟨h1, h2, e⟩ | ⟨h1, h2, h3, e⟩ | ⟨h1, h2, h3, e⟩⟩ := present_cases s <;>
    rw [e] at h
  · exact Or.inl ⟨h0, (Host.Outcome.next.inj h).symm⟩
  · exact Or.inr ⟨c, rest, h0, Or.inl ⟨h1, (Host.Outcome.next.inj h).symm⟩⟩
  · exact Or.inr ⟨c, rest, h0, Or.inr (Or.inl ⟨h1, h2, h⟩)⟩
  · exact Or.inr ⟨c, rest, h0, Or.inr (Or.inr (Or.inl ⟨h1, h2, h3, h⟩))⟩
  · exact Or.inr ⟨c, rest, h0, Or.inr (Or.inr (Or.inr ⟨h1, h2, h3, (Host.Outcome.next.inj h).symm⟩))⟩

/-- A step that performs an operation is that operation at the state whose ports have been read. -/
theorem performs_exec {s t : State} {i : Instr} (h : Performs s i t) :
    ∃ ins wall, exec i { s with inputs := ins, wallNow := wall } = .next t := by
  obtain ⟨⟨v, hv⟩, hs⟩ := h
  unfold step at hs
  rw [hv] at hs
  obtain ⟨h0, e⟩ | ⟨c, rest, h0, ⟨h1, e⟩ | ⟨h1, h2, e⟩ | ⟨h1, h2, h3, e⟩ | ⟨h1, h2, h3, e⟩⟩ := present_cases s <;>
    rw [e] at hv <;> cases hv
  · exact ⟨_, _, hs⟩
  · exact ⟨_, _, hs⟩


/-- The host's run of any machine, one step at a time. -/
theorem run_succ {M : Host.Core} {s t : M.State} {k : Nat} (h : M.step s = .next t) :
    M.run (k + 1) s = M.run k t := by
  rw [Host.Core.run, h]

/-- An observation, one step at a time (R292). -/
theorem observe_succ {s t : State} {k : Nat} (h : step s = .next t) :
    observe (k + 1) s = (t.outputs :: (observe k t).1, (observe k t).2) := by
  simp [observe, h]

/-! ### What comes between -/

@[simp] theorem fallsWhileAttached_nil (a : Bool) : fallsWhileAttached a [] = 0 := rfl
@[simp] theorem fallsWhileAttached_cons (a : Bool) (i : Instr) (is : List Instr) :
    fallsWhileAttached a (i :: is)
      = (if a && isFall i then 1 else 0) + fallsWhileAttached (attachedAfter a i) is := rfl
@[simp] theorem startFree_nil (a seen : Bool) (last : Tick) : startFree a seen last [] = true := rfl

/-- While detached a RISE is no concern. -/
@[simp] theorem startFree_detached (seen : Bool) (last : Tick) (i : Instr) (is : List Instr) :
    startFree false seen last (i :: is) = startFree (attachedAfter false i) seen last is := by
  cases i <;> rfl

/-- While attached each RISE comes within T_START of the one before (R121). -/
@[simp] theorem startFree_rise (seen : Bool) (last t : Tick) (is : List Instr) :
    startFree true seen last (.rise t :: is) = true
      ↔ seen = true ∧ elapsed last t ≤ 250000 ∧ startFree true true t is = true := by
  simp only [startFree, riseTick, Bool.and_eq_true, decide_eq_true_eq, and_assoc]
  rfl

/-- Any other operation is no concern. -/
theorem startFree_other (a seen : Bool) (last : Tick) (i : Instr) (is : List Instr) (h : riseTick i = none) :
    startFree a seen last (i :: is) = startFree (attachedAfter a i) seen last is := by
  cases a <;> simp [startFree, h]

/-- What an operation makes of ATTACHED (R29, R190, R191). -/
theorem exec_attached {i : Instr} {s u : State} (h : exec i s = .next u) :
    u.attached = attachedAfter s.attached i := by
  cases exec_cases h with
  | timeoutMissing => obtain ⟨-, e⟩ | ⟨-, e⟩ := missingMessage_cases s <;> simp [e, attachedAfter]
  | reserved i hi => cases i <;> simp [isReservedCmd, State.noteReserved, attachedAfter] at hi ⊢
  | plainRead i w hi => cases i <;> simp [isPlainRead, attachedAfter] at hi ⊢
  | _ => simp_all [takePulse, completeFrame, shortMessage, fullMessage, attachedAfter]

/-- What is left of a cycle once its read is performed keeps the latch, and so do the cycles to come. -/
theorem keepsLatch_afterRead {c : PortCycle} {rest : List PortCycle} (hr : c.rst = false)
    (h : ∀ d ∈ rest, keepsLatch d = true) : ∀ d ∈ afterRead c rest, keepsLatch d = true := by
  unfold afterRead
  cases c.cmdValid
  · exact h
  · intro d hd
    obtain rfl | hd := List.mem_cons.1 hd
    · simp [keepsLatch, hr]
    · exact h d hd

/-! ### Operations in a row -/

/-- Nothing to perform. -/
@[simp] theorem execAll_nil (s : State) : execAll [] s = .next s := rfl

/-- One operation, then the rest. -/
theorem execAll_cons {i : Instr} {is : List Instr} {s t : State} (h : exec i s = .next t) :
    execAll (i :: is) s = execAll is t := by
  simp [execAll, h]

/-- Operations in a row, split anywhere. -/
theorem execAll_append {is js : List Instr} {s t : State} (h : execAll is s = .next t) :
    execAll (is ++ js) s = execAll js t := by
  induction is generalizing s with
  | nil => injection h with h; subst h; rfl
  | cons i is ih =>
    cases e : exec i s with
    | next v => rw [execAll_cons e] at h; rw [List.cons_append, execAll_cons e, ih h]
    | fault r => simp [execAll, e] at h
    | refused r => simp [execAll, e] at h

/-- A property that every operation keeps, every row of operations keeps. -/
theorem execAll_keeps {P : State → Prop} {is : List Instr} {s t : State}
    (keep : ∀ i ∈ is, ∀ a b, P a → exec i a = .next b → P b) (hs : P s) (h : execAll is s = .next t) : P t := by
  induction is generalizing s with
  | nil => injection h with h; subst h; exact hs
  | cons i is ih =>
    cases e : exec i s with
    | next v =>
      rw [execAll_cons e] at h
      exact ih (fun j hj => keep j (List.mem_cons_of_mem _ hj)) (keep i List.mem_cons_self _ _ hs e) h
    | fault r => simp [execAll, e] at h
    | refused r => simp [execAll, e] at h

end Sys2Proof.Machine
end

