-- ==== Sys2Proof/Laws/PerInstr.lean ====
section
/-! SUPPORT. Statements made of every operation as syntax, one lemma per constructor. `RowMatch`: the encoded word
of a well-formed operation meets the mask and match of its row of spec/opcode_table.json. -/

namespace Sys2Proof.Laws.RowMatch

open Sys2Proof

/-- A command word is one of the row of `mask` and `value`. -/
def CmdRow (mask value : BitVec 36) : PortWord → Prop
  | .cmd w => w &&& mask = value
  | .rd _ => False

/-- A read address is one of the row of `mask` and `value`. -/
def RdRow (mask value : BitVec 4) : PortWord → Prop
  | .cmd _ => False
  | .rd a => a &&& mask = value

/-- The row of an operation's constructor in spec/opcode_table.json, met by a port word. -/
def InRow : Instr → PortWord → Prop
  | .fall _ => CmdRow 0xF00000000#36 0x000000000#36
  | .rise _ => CmdRow 0xF00000000#36 0x100000000#36
  | .timeout _ => CmdRow 0xF00000000#36 0x200000000#36
  | .rsvCmd3 _ => CmdRow 0xF00000000#36 0x300000000#36
  | .rsvCmd4To7 _ _ => CmdRow 0xC00000000#36 0x400000000#36
  | .attach _ => CmdRow 0xF00000000#36 0x800000000#36
  | .cleanup _ => CmdRow 0xF00000000#36 0x900000000#36
  | .rsvCmdAToB _ _ => CmdRow 0xE00000000#36 0xA00000000#36
  | .rsvCmdCToF _ _ => CmdRow 0xC00000000#36 0xC00000000#36
  | .rdSnap => RdRow 0xF#4 0x0#4
  | .rdLHum => RdRow 0xF#4 0x1#4
  | .rdLTemp => RdRow 0xF#4 0x2#4
  | .rdLTovLo => RdRow 0xF#4 0x3#4
  | .rdLTovHi => RdRow 0xF#4 0x4#4
  | .rdLStaleLo => RdRow 0xF#4 0x5#4
  | .rdLStaleHi => RdRow 0xF#4 0x6#4
  | .rdCntBadcs => RdRow 0xF#4 0x7#4
  | .rdCntShort => RdRow 0xF#4 0x8#4
  | .rdCntMissing => RdRow 0xF#4 0x9#4
  | .rdCntReset => RdRow 0xF#4 0xA#4
  | .rdStatus => RdRow 0xF#4 0xB#4
  | .rdFrameData => RdRow 0xF#4 0xC#4
  | .rdFrameCs => RdRow 0xF#4 0xD#4
  | .rdReserved _ => RdRow 0xE#4 0xE#4

/-- The encoded word of a well-formed operation is a word of its row. -/
def Statement (i : Instr) : Prop := i.wellFormed = true → InRow i (encode i)

/-- A mask of the table covers KIND alone: a command word meets it exactly where its KIND meets the mask's KIND. -/
theorem cmdRow_of_kind (mask value kind : BitVec 4) (tick : BitVec 32) (h : kind &&& mask = value) :
    CmdRow (cmdWordOf mask 0) (cmdWordOf value 0) (.cmd (cmdWordOf kind tick)) :=
  (cmdWordOf_and_mask kind mask value tick).2 h

theorem fall (tick : BitVec 32) : Statement (.fall tick) := fun _ => cmdRow_of_kind 0xF 0x0 0x0 tick rfl
theorem rise (tick : BitVec 32) : Statement (.rise tick) := fun _ => cmdRow_of_kind 0xF 0x1 0x1 tick rfl
theorem timeout (tick : BitVec 32) : Statement (.timeout tick) := fun _ => cmdRow_of_kind 0xF 0x2 0x2 tick rfl
theorem rsvCmd3 (tick : BitVec 32) : Statement (.rsvCmd3 tick) := fun _ => cmdRow_of_kind 0xF 0x3 0x3 tick rfl

theorem rsvCmd4To7 (kind : BitVec 4) (tick : BitVec 32) : Statement (.rsvCmd4To7 kind tick) := fun h =>
  cmdRow_of_kind 0xC 0x4 kind tick (by simp only [Instr.wellFormed] at h; revert kind; decide)

theorem attach (tick : BitVec 32) : Statement (.attach tick) := fun _ => cmdRow_of_kind 0xF 0x8 0x8 tick rfl
theorem cleanup (tick : BitVec 32) : Statement (.cleanup tick) := fun _ => cmdRow_of_kind 0xF 0x9 0x9 tick rfl

theorem rsvCmdAToB (kind : BitVec 4) (tick : BitVec 32) : Statement (.rsvCmdAToB kind tick) := fun h =>
  cmdRow_of_kind 0xE 0xA kind tick (by simp only [Instr.wellFormed] at h; revert kind; decide)

theorem rsvCmdCToF (kind : BitVec 4) (tick : BitVec 32) : Statement (.rsvCmdCToF kind tick) := fun h =>
  cmdRow_of_kind 0xC 0xC kind tick (by simp only [Instr.wellFormed] at h; revert kind; decide)

theorem rdSnap : Statement .rdSnap := fun _ => rfl
theorem rdLHum : Statement .rdLHum := fun _ => rfl
theorem rdLTemp : Statement .rdLTemp := fun _ => rfl
theorem rdLTovLo : Statement .rdLTovLo := fun _ => rfl
theorem rdLTovHi : Statement .rdLTovHi := fun _ => rfl
theorem rdLStaleLo : Statement .rdLStaleLo := fun _ => rfl
theorem rdLStaleHi : Statement .rdLStaleHi := fun _ => rfl
theorem rdCntBadcs : Statement .rdCntBadcs := fun _ => rfl
theorem rdCntShort : Statement .rdCntShort := fun _ => rfl
theorem rdCntMissing : Statement .rdCntMissing := fun _ => rfl
theorem rdCntReset : Statement .rdCntReset := fun _ => rfl
theorem rdStatus : Statement .rdStatus := fun _ => rfl
theorem rdFrameData : Statement .rdFrameData := fun _ => rfl
theorem rdFrameCs : Statement .rdFrameCs := fun _ => rfl

theorem rdReserved (addr : BitVec 4) : Statement (.rdReserved addr) := fun h => by
  change addr &&& 0xE#4 = 0xE#4
  simp only [Instr.wellFormed] at h
  revert addr; decide

end Sys2Proof.Laws.RowMatch
end

