-- ==== Sys2Proof/Tests/Slice0.lean ====
section
/-! SUPPORT. The model's own tests. Every expected value is from spec/: a vector V-… or L1-… of spec/95_test_vectors.md,
or a rule's own example. After them, for every obligation with hypotheses, a state and operands that meet them. -/

namespace Sys2Proof.Tests

open Sys2Proof
open Sys2Proof.Machine

/-- The start state of the vectors of spec/95_test_vectors.md sections 2.3 to 2.5, at position `p`. -/
def at_ (p : Int) : State :=
  { State.reset with attached := true, riseSeen := true, lastRise := 1000#32, p := p }

/-- What an operation answers passes a check on its next state. -/
def nextIs (r : Result) (check : State → Bool) : Bool :=
  match r with
  | .next t => check t
  | .fault _ => false
  | .refused _ => false

/-! ### WellFormed refuses what no word stands for -/

theorem test_wf_refuses_kind_outside_4_7 :
    (Instr.rsvCmd4To7 3 0).wellFormed = false ∧ (Instr.rsvCmd4To7 8 0).wellFormed = false := by decide
theorem test_wf_refuses_kind_outside_A_B :
    (Instr.rsvCmdAToB 9 0).wellFormed = false ∧ (Instr.rsvCmdAToB 12 0).wellFormed = false := by decide
theorem test_wf_refuses_kind_below_C : (Instr.rsvCmdCToF 11 0).wellFormed = false := by decide
theorem test_wf_refuses_named_read_address : (Instr.rdReserved 13).wellFormed = false := by decide

/-! ### Decoding: words written out from R81, R82 and R85 (the word of a vector where its id is given) -/

/-- V-FA-20, V-RI-1, V-RI-4. -/
theorem test_decode_edges : decodeTableWord 40 0x0000003DE = some (.fall 990)
    ∧ decodeTableWord 40 0x10003D091 = some (.rise 250001)
    ∧ decodeTableWord 40 0x10002D091 = some (.rise 0x2D091) := by decide
/-- Section 2.5; a TICK is ignored but kept. -/
theorem test_decode_timeout : decodeTableWord 40 0x200000000 = some (.timeout 0)
    ∧ decodeTableWord 40 0x2FFFFFFFF = some (.timeout 0xFFFFFFFF) := by decide
/-- V-CT-1, V-CT-3. -/
theorem test_decode_control : decodeTableWord 40 0x800000000 = some (.attach 0)
    ∧ decodeTableWord 40 0x900000000 = some (.cleanup 0) := by decide
/-- V-CT-5, V-CT-6; both ends of each group. -/
theorem test_decode_reserved_kinds : decodeTableWord 40 0x300001234 = some (.rsvCmd3 0x1234)
    ∧ decodeTableWord 40 0x400000000 = some (.rsvCmd4To7 4 0) ∧ decodeTableWord 40 0x700000000 = some (.rsvCmd4To7 7 0)
    ∧ decodeTableWord 40 0xA00000000 = some (.rsvCmdAToB 10 0) ∧ decodeTableWord 40 0xB00000000 = some (.rsvCmdAToB 11 0)
    ∧ decodeTableWord 40 0xC00000000 = some (.rsvCmdCToF 12 0)
    ∧ decodeTableWord 40 0xF00000000 = some (.rsvCmdCToF 15 0) := by decide
theorem test_decode_latch_reads : decodeTableWord 8 0x0 = some .rdSnap ∧ decodeTableWord 8 0x1 = some .rdLHum
    ∧ decodeTableWord 8 0x2 = some .rdLTemp ∧ decodeTableWord 8 0x3 = some .rdLTovLo
    ∧ decodeTableWord 8 0x4 = some .rdLTovHi ∧ decodeTableWord 8 0x5 = some .rdLStaleLo
    ∧ decodeTableWord 8 0x6 = some .rdLStaleHi := by decide
theorem test_decode_live_reads : decodeTableWord 8 0x7 = some .rdCntBadcs ∧ decodeTableWord 8 0x8 = some .rdCntShort
    ∧ decodeTableWord 8 0x9 = some .rdCntMissing ∧ decodeTableWord 8 0xA = some .rdCntReset
    ∧ decodeTableWord 8 0xB = some .rdStatus ∧ decodeTableWord 8 0xC = some .rdFrameData
    ∧ decodeTableWord 8 0xD = some .rdFrameCs ∧ decodeTableWord 8 0xE = some (.rdReserved 14)
    ∧ decodeTableWord 8 0xF = some (.rdReserved 15) := by decide
/-- A number wider than its port is rejected by name. -/
theorem test_decode_rejects_too_wide : decodeBits 40 0x1000000000 = .error .cmdWordTooWide
    ∧ decodeBits 8 0x10 = .error .rdAddrTooWide := by decide

/-! ### RISE -/

/-- V-RI-1 and V-RI-2: 250001 is a start condition, 250000 is not. -/
theorem test_rise_threshold :
    nextIs (exec (.rise 250001) { at_ 40 with lastRise := 0 }) (fun t => t.p = -2 && t.lastRise = 0x3D091) = true
    ∧ nextIs (exec (.rise 250000) { at_ 40 with lastRise := 0 }) (fun t => t.p = 40 && t.lastRise = 0x3D090) = true := by
  decide
/-- V-RI-6: a start condition in mid-frame abandons it. -/
theorem test_rise_abandons_frame :
    nextIs (exec (.rise 301000) { at_ 20 with hh := 0x12, poison := true })
      (fun t => t.p = -2 && t.hh = 0 && !t.poison && t.cntShort = 0 && statusWord t = 0x0000000A) = true := by decide

/-! ### FALL -/

/-- V-FA-2 and V-FA-6: position 7 still belongs to HH, and the old bit 7 is dropped. -/
theorem test_fall_routes :
    nextIs (exec (.fall 1026) { at_ 7 with hh := 0x7F }) (fun t => t.p = 8 && t.hh = 0xFE && t.hl = 0) = true
    ∧ nextIs (exec (.fall 1026) { at_ 16 with th := 0x80 }) (fun t => t.p = 17 && t.th = 0) = true := by decide
/-- V-CV-2 and V-CV-12: a negative reading published, and a Corrupt last bit that spoils a matching sum. -/
theorem test_fall_completes :
    nextIs (exec (.fall 1070)
        { at_ 39 with hh := 0x02, hl := 0x5A, th := 0x81, tl := 0x2C, cs := 0x04, wallNow := 5000000, streak := 2 })
      (fun t => t.p = 40 && t.cs = 0x09 && t.valid && t.hum = 602 && t.temp = 0xFED4 && t.tov = 5000000
        && t.streak = 0 && t.outputs.disarm) = true
    ∧ nextIs (exec (.fall 1250) { at_ 39 with hh := 0x02, hl := 0x5A, th := 0x01, tl := 0x2C, cs := 0x44 })
      (fun t => t.cs = 0x89 && t.poison && !t.valid && t.cntBadcs = 1) = true := by decide

/-! ### TIMEOUT -/

/-- V-TO-4, at P = 7 with a streak of 2. -/
theorem test_timeout_escalates :
    nextIs (exec (.timeout 0) { at_ 7 with streak := 2 }) (fun t => t.cntMissing = 1 && t.cntReset = 1 && t.streak = 0
      && t.outputs = { disarm := true, pwrcyc := true }) = true := by decide
/-- V-TO-6 and V-TO-9: P = 8 is short, P = 39 counts nothing. -/
theorem test_timeout_short_and_full :
    nextIs (exec (.timeout 0) { at_ 8 with streak := 2 }) (fun t => t.cntShort = 1 && t.streak = 0 && t.p = 8) = true
    ∧ nextIs (exec (.timeout 0) { at_ 39 with streak := 1 })
      (fun t => t.cntShort = 0 && t.cntMissing = 0 && t.streak = 0 && t.outputs.disarm) = true := by decide

/-! ### Control -/

/-- V-CT-1. -/
theorem test_attach : nextIs (exec (.attach 0) State.reset) (fun t => statusWord t = 0x00002A02) = true := by decide
/-- V-CT-3 and V-CT-4. -/
theorem test_cleanup :
    nextIs (exec (.cleanup 0) (at_ 20)) (fun t => !t.attached && t.p = 20 && t.outputs.disarm) = true
    ∧ nextIs (exec (.cleanup 0) State.reset) (fun t => decide (t = State.reset)) = true := by decide
/-- V-CT-7, for each reserved row. -/
theorem test_reserved_kinds :
    nextIs (exec (.rsvCmd3 0) State.reset) (fun t => statusWord t = 0x00002A10) = true
    ∧ nextIs (exec (.rsvCmd4To7 4 0) State.reset) (fun t => statusWord t = 0x00002A10) = true
    ∧ nextIs (exec (.rsvCmdAToB 10 0) State.reset) (fun t => statusWord t = 0x00002A10) = true
    ∧ nextIs (exec (.rsvCmdCToF 15 0) State.reset) (fun t => statusWord t = 0x00002A10) = true := by decide

/-! ### Reads: V-RD-1, then the others on the latch it leaves -/

/-- The start state of spec/95_test_vectors.md section 2.7, at the wall clock of V-RD-1. -/
def reading : State :=
  { State.reset with valid := true, hum := 602, temp := 0xFED4, tov := 5000000, attached := true, wallNow := 7500000 }

/-- The state after V-RD-1. -/
def snapped : State :=
  { reading with lValid := true, lHum := 602, lTemp := 0xFED4, lTov := 5000000, lStale := 2500000 }

/-- An operation returns a word and changes nothing but the outputs. -/
def returns (i : Instr) (s : State) (w : Word) : Bool :=
  nextIs (exec i s) fun t => decide (t = { s with outputs := { rdData := some w } })

/-- V-RD-1. -/
theorem test_rd_snap :
    nextIs (exec .rdSnap reading) (fun t => decide (t = { snapped with outputs := { rdData := some 1 } })) = true := by
  decide
/-- V-RD-14: a wall clock before TOV wraps. -/
theorem test_rd_snap_wraps :
    nextIs (exec .rdSnap { State.reset with valid := true, hum := 1, temp := 1, tov := 10, wallNow := 5 })
      (fun t => t.lStale = 0xFFFFFFFFFFFFFFFB && t.outputs.rdData = some 1) = true := by decide
/-- V-RD-2 to V-RD-7. -/
theorem test_rd_latched : returns .rdLHum snapped 0x0000025A = true ∧ returns .rdLTemp snapped 0xFFFFFED4 = true
    ∧ returns .rdLTovLo snapped 0x004C4B40 = true ∧ returns .rdLTovHi snapped 0 = true
    ∧ returns .rdLStaleLo snapped 0x002625A0 = true ∧ returns .rdLStaleHi snapped 0 = true := by decide
/-- V-RD-15 and V-RD-16: the high words. -/
theorem test_rd_high_words :
    returns .rdLStaleHi { snapped with lStale := 0x100000005 } 1 = true
    ∧ returns .rdLTovHi { snapped with lTov := 0x100000007 } 1 = true := by decide
/-- V-RD-9 and V-RD-11. -/
theorem test_rd_status_reserved : returns .rdStatus snapped 0x00002A03 = true
    ∧ returns (.rdReserved 14) snapped 0 = true ∧ returns (.rdReserved 15) snapped 0 = true := by decide
/-- R217 to R220: each counter through its own address. -/
theorem test_rd_counters :
    let s := { snapped with cntBadcs := 1, cntShort := 2, cntMissing := 3, cntReset := 4 }
    returns .rdCntBadcs s 1 = true ∧ returns .rdCntShort s 2 = true ∧ returns .rdCntMissing s 3 = true
      ∧ returns .rdCntReset s 4 = true := by decide
/-- The examples of R222 and R223. -/
theorem test_rd_frame :
    let s := { snapped with hh := 0x02, hl := 0x5A, th := 0x01, tl := 0x2C, cs := 0x89 }
    returns .rdFrameData s 0x025A012C = true ∧ returns .rdFrameCs s 0x00000089 = true := by decide

/-! ### The ports -/

/-- V-RS-2: ATTACH beside `rst` is not performed. -/
theorem test_reset_cycle :
    nextIs (step { at_ 20 with inputs := [{ rst := true, cmdValid := true, cmdWord := 0x800000000, wallNow := 9 }] })
      (fun t => decide (t = { State.reset with wallNow := 9, outputs := { rdData := some 0 } })) = true := by decide
/-- R72: a read beside an ATTACH sees the state before it, and ATTACH comes next. -/
theorem test_read_before_command :
    let c : PortCycle := { cmdValid := true, cmdWord := 0x800000000, rdEn := true, rdAddr := 0xB }
    nextIs (step { State.reset with inputs := [c] }) (fun t => t.outputs.rdData = some 0x00002A00
      && nextIs (step t) (fun u => u.attached && decide (u.inputs = []))) = true := by decide
/-- R12: a word of the table, presented to the machine right after reset, is the next operation. -/
theorem test_fetch_word :
    nextIs (step (State.reset.withFetchWord 40 0x800000000)) (fun t => t.attached && decide (t.inputs = [])) = true
    ∧ nextIs (step (State.reset.withFetchWord 8 0xB)) (fun t => t.outputs.rdData = some 0x00002A00) = true := by decide
/-- R89, R90: @wall sets the clock of the lines after it, and BIT is a RISE and a FALL 26 or 70 later. -/
theorem test_trace_cycles :
    traceCycles 1 [.wall 5, .bit 1000 true, .op .rdSnap]
      = [{ cmdValid := true, cmdWord := 0x1000003E8, wallNow := 5 },
         { cmdValid := true, cmdWord := 0x00000042E, wallNow := 5 },
         { rdEn := true, rdAddr := 0x0, wallNow := 5 }] := by decide

/-! ### Witnesses: the hypotheses of each obligation, met -/

/-- A cycle with `rst` and a command beside it. -/
def rstCycle : PortCycle := { rst := true, cmdValid := true, cmdWord := 0x800000000 }

theorem witness_ResetCycleRestoresResetValues :
    { at_ 20 with inputs := [rstCycle] }.inputs = rstCycle :: [] ∧ rstCycle.rst = true := by decide
theorem witness_ResetCycleLeavesTheInputsToCome :
    { at_ 20 with inputs := [rstCycle, rstCycle] }.inputs = rstCycle :: [rstCycle] ∧ rstCycle.rst = true := by decide
theorem witness_StepRunsPresentedOperation : (Instr.rsvCmdCToF 12 0).wellFormed = true
    ∧ { at_ 3 with inputs := [cycleOf 7 (encode (.rsvCmdCToF 12 0))] }.inputs
      = cycleOf 7 (encode (.rsvCmdCToF 12 0)) :: [] := by decide
theorem witness_StepRunsPresentedTableWord :
    decodeTableWord 40 0xFFFFFFFFF = some (.rsvCmdCToF 15 0xFFFFFFFF) ∧ decodeTableWord 8 0x0 = some .rdSnap := by
  decide
theorem witness_IdleCycleChangesNothing :
    let c : PortCycle := { wallNow := 3 }
    ({ at_ 3 with inputs := [c] }.inputs = c :: [] ∧ c.rst = false ∧ c.rdEn = false ∧ c.cmdValid = false)
      ∧ (at_ 3).inputs = [] := by decide
theorem witness_SameCycleReadPrecedesCommand :
    let c : PortCycle := { rdEn := true, cmdValid := true }
    { at_ 3 with inputs := [c] }.inputs = c :: [] ∧ c.rst = false ∧ c.rdEn = true ∧ c.cmdValid = true := by decide
theorem witness_RunPerformsPresentedOperationsInOrder :
    ∀ i ∈ [Instr.attach 0, .rise 5, .rsvCmd4To7 7 0, .rdReserved 14], i.wellFormed = true := by decide
theorem witness_DecodeEncodeRoundTrip :
    (Instr.rsvCmd4To7 4 0).wellFormed = true ∧ (Instr.rsvCmd4To7 7 0).wellFormed = true
    ∧ (Instr.rsvCmdAToB 10 0).wellFormed = true ∧ (Instr.rsvCmdAToB 11 0).wellFormed = true
    ∧ (Instr.rsvCmdCToF 12 0).wellFormed = true ∧ (Instr.rdReserved 14).wellFormed = true
    ∧ (Instr.fall 0xFFFFFFFF).wellFormed = true := by decide
theorem witness_IntervalIsModuloTicks :
    (1000#32).toNat ≤ (1000#32).toNat ∧ (990#32).toNat < (1000#32).toNat
    ∧ (1000#32).toNat - (990#32).toNat ≤ 2 ^ 32 - 200 := by decide
theorem witness_RiseStartsFrameAfterLongInterval :
    ((at_ 40).attached = true ∧ elapsed (at_ 40).lastRise 251001 > 250000 ∧ (at_ 40).riseSeen = true
      ∧ elapsed (at_ 40).lastRise 251000 ≤ 250000)
    ∧ ({ at_ 40 with riseSeen := false }.attached = true ∧ { at_ 40 with riseSeen := false }.riseSeen = false)
    ∧ State.reset.attached = false := by decide
theorem witness_FallRoutesBitToFieldOfPosition :
    ∀ p ∈ [-2, -1, 0, 7, 8, 15, 16, 23, 24, 31, 32, 39],
      (at_ p).attached = true ∧ -2 ≤ (at_ p).p ∧ (at_ p).p < 40 := by decide
theorem witness_FallBeforeCompletionKeepsTheRest :
    ∀ p ∈ [-2, 38], (at_ p).attached = true ∧ -2 ≤ (at_ p).p ∧ (at_ p).p < 39 := by decide
theorem witness_IdleFallHasNoEffect : 40 ≤ (at_ 40).p
    ∧ (at_ 39).p ≤ 40 ∧ ∃ u, exec (.fall 1070) (at_ 39) = .next u := ⟨by decide, by decide, _, rfl⟩
theorem witness_CorruptPulsePoisonsUntilNextStart :
    (∀ p ∈ [-2, 39], (at_ p).attached = true ∧ -2 ≤ (at_ p).p ∧ (at_ p).p < 40 ∧ 200 ≤ elapsed (at_ p).lastRise 1200)
    ∧ (∃ u, exec (.fall 1026) { at_ 20 with poison := true } = .next u ∧ { at_ 20 with poison := true }.poison = true)
    ∧ ({ at_ 39 with poison := true }.attached = true ∧ { at_ 39 with poison := true }.p = 39
      ∧ { at_ 39 with poison := true }.poison = true) := ⟨by decide, ⟨_, rfl, rfl⟩, by decide⟩
/-- The two inner clauses: the frame of V-CV-1 passes, the same frame with V-CV-5's last bit does not. -/
theorem witness_CompletingFallValidatesTheFrame :
    let s := { at_ 39 with hh := 0x02, hl := 0x5A, th := 0x01, tl := 0x2C, cs := 0x44 }
    (s.attached = true ∧ s.p = 39)
    ∧ nextIs (exec (.fall 1070) s)
      (fun u => !u.poison && (s.hh.toNat + s.hl.toNat + s.th.toNat + s.tl.toNat) % 256 = u.cs.toNat) = true
    ∧ nextIs (exec (.fall 1026) s)
      (fun u => (s.hh.toNat + s.hl.toNat + s.th.toNat + s.tl.toNat) % 256 ≠ u.cs.toNat) = true := by decide
theorem witness_ConversionIsSignMagnitude : (0x7F#8).toNat < 128 ∧ 128 ≤ (0x80#8).toNat := by decide
/-- Rises 250000 µs apart and pulses of 199 µs, after a first rise that starts a frame either way. -/
theorem witness_PulseTrainDecodesToItsFrame :
    let r : Nat → BitVec 32 := fun k => BitVec.ofNat 32 (251001 + 250000 * k)
    let w : Nat → BitVec 32 := fun _ => 199
    (at_ 40).attached = true ∧ elapsed (at_ 40).lastRise (r 0) > 250000
    ∧ { at_ 40 with riseSeen := false }.riseSeen = false
    ∧ (∀ k, k < 41 → elapsed (r k) (r (k + 1)) ≤ 250000) ∧ ∀ k, k < 42 → (w k).toNat < 200 := by decide
/-- Each clause at the ends of its range of P and of STREAK. -/
theorem witness_TimeoutFollowsThePolicy :
    (∀ p ∈ [-2, 7], (at_ p).attached = true ∧ (at_ p).p < 8
      ∧ { at_ p with streak := 1 }.streak.toNat + 1 ≤ 2 ∧ { at_ p with streak := 2 }.streak.toNat + 1 > 2)
    ∧ (∀ p ∈ [8, 38], (at_ p).attached = true ∧ 8 ≤ (at_ p).p ∧ (at_ p).p < 39)
    ∧ (∀ p ∈ [39, 40], (at_ p).attached = true ∧ 39 ≤ (at_ p).p) ∧ State.reset.attached = false := by decide
theorem witness_EveryThirdMissingMessageEscalatesOnce :
    (at_ 7).attached = true ∧ (at_ 7).p < 8 ∧ { at_ 7 with streak := 2 }.streak.toNat ≤ 2 := by decide
/-- A cycle that presents a TIMEOUT. -/
def timeoutCycle (wall : Wall) : PortCycle := { cmdValid := true, cmdWord := 0x200000000, wallNow := wall }

/-- From the bound of the streak: three TIMEOUTs, after the first of them a FALL, at a later wall clock each. -/
theorem witness_EveryThirdMissingMessageStepEscalatesOnce :
    let a := { at_ 6 with
                 streak := 2, inputs := [timeoutCycle 1, { cmdValid := true, cmdWord := 0x000000402, wallNow := 2 },
                                         timeoutCycle 3, timeoutCycle 4] }
    ∃ a' b b' c' : State, a.streak.toNat ≤ 2 ∧ MissingMessageStep a a' ∧ StreakKept a' b ∧ MissingMessageStep b b'
      ∧ StreakKept b' b' ∧ MissingMessageStep b' c' ∧ b.p = 7 ∧ c'.streak = 2 :=
  ⟨_, _, _, _, by decide, ⟨rfl, by decide, 0, ⟨_, rfl⟩, rfl⟩,
    .single ⟨fun _ _ h => by injection h with h; subst h; rfl, rfl, rfl⟩, ⟨rfl, by decide, 0, ⟨_, rfl⟩, rfl⟩, .refl,
    ⟨rfl, by decide, 0, ⟨_, rfl⟩, rfl⟩, by decide, by decide⟩
theorem witness_StreakChangesOnlyByTimeoutAndCompletion :
    (∃ u, exec (.timeout 0) (at_ 7) = .next u ∧ u.streak ≠ (at_ 7).streak)
    ∧ ∃ u, exec (.fall 1070) { at_ 39 with streak := 2 } = .next u ∧ u.streak ≠ { at_ 39 with streak := 2 }.streak :=
  ⟨⟨_, rfl, by decide⟩, ⟨_, rfl, by decide⟩⟩
theorem witness_AttachAndCleanupSetTheSubscription :
    (at_ 3).attached = true ∧ State.reset.attached = false := by decide
theorem witness_DetachedEventsHaveNoEffect : { at_ 3 with attached := false }.attached = false := by decide
theorem witness_ReattachKeepsTheFrame :
    (at_ 20).attached = true ∧ ∀ i ∈ [Instr.rise 0x10000000, .fall 5, .timeout 0], isEdgeEvent i = true := by decide
theorem witness_ReservedKindsOnlySetCmdErr :
    ∀ w ∈ [0x300000000#36, 0x7FFFFFFFF#36, 0xA00000000#36, 0xFFFFFFFFF#36],
      (3 ≤ w.toNat / 2 ^ 32 ∧ w.toNat / 2 ^ 32 ≤ 7) ∨ 10 ≤ w.toNat / 2 ^ 32 := by simp
theorem witness_StatusReadHasItsFields : ∀ p ∈ [-2, 40], -2 ≤ (at_ p).p ∧ (at_ p).p ≤ 40 := by decide
theorem witness_OnlySnapHasAReadSideEffect : (0x1#4) ≠ 0x0#4 ∧ (0xF#4) ≠ 0x0#4 := by decide
/-- V-RD-17, with the frame's last FALL: SNAP at 5000000 and a publish at 6000000, two steps later. -/
theorem witness_LatchedReadsComeFromOneSnapshot :
    let c : PortCycle := { rdEn := true, rdAddr := 0x0, cmdValid := true, cmdWord := 0x800000000, wallNow := 5000000 }
    let d : PortCycle := { cmdValid := true, cmdWord := 0x000000402, wallNow := 6000000 }
    let s := { at_ 39 with valid := true, hum := 602, temp := 300, tov := 5000000, inputs := [c, d] }
    (s.inputs = c :: [d] ∧ c.rst = false ∧ c.rdEn = true ∧ c.rdAddr = 0x0#4 ∧ ∀ e ∈ [d], keepsLatch e = true)
    ∧ ∃ t u, step s = .next t ∧ Host.Core.run Sys2Proof.core 2 t = .next u ∧ u.tov = 6000000 ∧ u.lTov = 5000000 :=
  ⟨by decide, _, _, rfl, rfl, by decide, by decide⟩
theorem witness_StalenessGrowsWithTheWallClock :
    let t := { reading with wallNow := 7500001 }
    reading.valid = true ∧ t.valid = true ∧ t.tov = reading.tov ∧ reading.tov.toNat ≤ reading.wallNow.toNat
      ∧ reading.wallNow.toNat ≤ t.wallNow.toNat := by decide
/-- P unchanged, set by a start condition, and advanced: the three cases. -/
theorem witness_PositionWrittenOnlyByStartAndFall :
    (∃ u, exec (.fall 1070) (at_ 40) = .next u) ∧ (∃ u, exec (.rise 251001) (at_ 20) = .next u ∧ u.p = -2)
    ∧ ∃ u, exec (.fall 1070) (at_ 39) = .next u ∧ u.p = 40 :=
  ⟨⟨_, rfl⟩, ⟨_, rfl, by decide⟩, ⟨_, rfl, by decide⟩⟩
/-- Each pulse begins with a RISE, the first 250000 µs after the one before; TIMEOUT and a detached FALL come between. -/
theorem witness_PositionCountsTheFalls :
    let ops := pulseOps 251000 26 ++ [.timeout 0, .cleanup 0, .rise 900000, .fall 5, .attach 0] ++ pulseOps 501000 70
    (at_ 38).p ≤ 40 ∧ startFree (at_ 38).attached (at_ 38).riseSeen (at_ 38).lastRise ops = true
    ∧ fallsWhileAttached (at_ 38).attached ops = 2
    ∧ ∃ u, execAll ops (at_ 38) = .next u ∧ u.p = 40 := ⟨by decide, by decide, by decide, _, rfl, by decide⟩
theorem witness_RiseTimingWrittenOnlyByAcceptedRise :
    (at_ 20).attached = true ∧ ∃ u, exec (.rise 1050) (at_ 20) = .next u ∧ u.lastRise = 1050 := ⟨rfl, _, rfl, rfl⟩
theorem witness_ReadingStoreChangesOnlyTogether :
    ∃ u, exec (.fall 1026) { at_ 39 with wallNow := 5 } = .next u ∧ u.tov = 5 := ⟨_, rfl, by decide⟩
theorem witness_CountersChangeOnlyInTheirEvents :
    (∃ u, exec (.fall 1070) (at_ 39) = .next u ∧ u.cntBadcs = 1)
    ∧ (∃ u, exec (.timeout 0) (at_ 38) = .next u ∧ u.cntShort = 1)
    ∧ ∃ u, exec (.timeout 0) { at_ 7 with streak := 2 } = .next u ∧ u.cntMissing = 1 ∧ u.cntReset = 1 :=
  ⟨⟨_, rfl, by decide⟩, ⟨_, rfl, by decide⟩, ⟨_, rfl, by decide⟩⟩
theorem witness_OnlyResetClearsStickyState :
    (∃ u, exec (.cleanup 0) { at_ 3 with valid := true, cmdErr := true } = .next u ∧ u.valid = true)
    ∧ (∃ u, (∀ c rest, (at_ 3).inputs = c :: rest → c.rst = false) ∧ step (at_ 3) = .next u)
    ∧ { at_ 3 with inputs := [rstCycle] }.inputs = rstCycle :: [] ∧ rstCycle.rst = true :=
  ⟨⟨_, rfl, rfl⟩, ⟨_, fun _ _ h => (List.cons_ne_nil _ _ h.symm).elim, rfl⟩, rfl, rfl⟩
theorem witness_ControlFlagsWrittenOnlyByTheirCommands :
    (∃ u, exec (.attach 0) State.reset = .next u ∧ u.attached = true)
    ∧ (∃ u, exec (.cleanup 0) (at_ 3) = .next u ∧ u.attached = false)
    ∧ ∃ u, exec (.rsvCmd3 0) (at_ 3) = .next u ∧ u.cmdErr = true :=
  ⟨⟨_, rfl, rfl⟩, ⟨_, rfl, rfl⟩, ⟨_, rfl, rfl⟩⟩
theorem witness_LatchWrittenOnlyBySnap : ∃ u, exec .rdLHum snapped = .next u ∧ Instr.rdLHum ≠ .rdSnap :=
  ⟨_, rfl, by decide⟩
theorem witness_PulsesAssertedExactlyWhenEmitted :
    ∃ u, exec (.timeout 0) { at_ 7 with streak := 2 } = .next u ∧ u.outputs.disarm = true ∧ u.outputs.pwrcyc = true :=
  ⟨_, rfl, by decide, by decide⟩
/-- The first case with a failing completion, the second with a publish. -/
theorem witness_WallClockReadOnlyByPublishAndSnap :
    (∃ u, exec (.fall 1070) (at_ 39) = .next u ∧ Instr.fall 1070 ≠ .rdSnap ∧ u.valid = false)
    ∧ ∃ u, exec (.fall 1026) { at_ 39 with wallNow := 5 } = .next u ∧ Instr.fall 1026 ≠ .rdSnap ∧ u.tov = 5 :=
  ⟨⟨_, rfl, by decide, by decide⟩, ⟨_, rfl, by decide, by decide⟩⟩
/-- The invariant holds at both ends of P with the streak at its bound, in a state with a frame in progress. -/
theorem inv_at (p : Int) (h : -2 ≤ p) (h' : p ≤ 40) : Inv { at_ p with streak := 2 } where
  positionLow := h
  positionHigh := h'
  streakBound := Nat.le_refl 2
  storeEmpty := fun _ => ⟨rfl, rfl, rfl⟩
  latchEmpty := fun _ => ⟨rfl, rfl, rfl, rfl⟩
  riseBeforeFrame := fun _ => rfl
  tempRange := show (0#16) ≠ 0x8000#16 by decide
  latchTempRange := show (0#16) ≠ 0x8000#16 by decide
theorem witness_StepKeepsInvariant :
    Inv { at_ (-2) with streak := 2 } ∧ Inv { at_ 40 with streak := 2 }
    ∧ ∃ t, step { at_ (-2) with streak := 2 } = .next t :=
  ⟨inv_at _ (by decide) (by decide), inv_at _ (by decide) (by decide), _, rfl⟩
/-- The clock stands still, then advances; TOV is the present wall clock. -/
theorem witness_MonotoneClockKeepsTovInThePast :
    let s := { reading with
                 wallNow := 5000000, inputs := [{ rdEn := true, wallNow := 5000000 }, { wallNow := 5000001 }] }
    ClockMonotone s ∧ TovInPast s ∧ ∃ t, step s = .next t :=
  ⟨by unfold ClockMonotone; decide, fun _ => by decide, _, rfl⟩

end Sys2Proof.Tests
end

section
/-! PROOFS. One presented port word, one operation performed (R12, R80, R84): the decoder undoes the encoder on every
well-formed operation, and a cycle that presents one port word and nothing else performs what that word decodes to. -/

namespace Sys2Proof

open Sys2Proof.Machine

/-! ### The decoder on the encoder's words (R82, R85) -/

/-- KIND 0x4 to 0x7 (R82). -/
theorem decodeCmd_rsvCmd4To7 {kind : BitVec 4} (tick : BitVec 32) (h : (Instr.rsvCmd4To7 kind tick).wellFormed = true) :
    decodeCmd (cmdWordOf kind tick) = .rsvCmd4To7 kind tick := by
  have below : kind ≠ 0x0#4 ∧ kind ≠ 0x1#4 ∧ kind ≠ 0x2#4 ∧ kind ≠ 0x3#4 ∧ kind ≤ 0x7#4 := by
    simp only [Instr.wellFormed] at h; revert kind; decide
  simp [decodeCmd, below]

/-- KIND 0xA and 0xB (R82). -/
theorem decodeCmd_rsvCmdAToB {kind : BitVec 4} (tick : BitVec 32) (h : (Instr.rsvCmdAToB kind tick).wellFormed = true) :
    decodeCmd (cmdWordOf kind tick) = .rsvCmdAToB kind tick := by
  have between : kind ≠ 0x0#4 ∧ kind ≠ 0x1#4 ∧ kind ≠ 0x2#4 ∧ kind ≠ 0x3#4 ∧ ¬ kind ≤ 0x7#4 ∧ kind ≠ 0x8#4
      ∧ kind ≠ 0x9#4 ∧ kind ≤ 0xB#4 := by
    simp only [Instr.wellFormed] at h; revert kind; decide
  simp only [decodeCmd, kindOf_cmdWordOf, tickOf_cmdWordOf, between, if_true, if_false]

/-- KIND 0xC to 0xF (R82). -/
theorem decodeCmd_rsvCmdCToF {kind : BitVec 4} (tick : BitVec 32) (h : (Instr.rsvCmdCToF kind tick).wellFormed = true) :
    decodeCmd (cmdWordOf kind tick) = .rsvCmdCToF kind tick := by
  have above : kind ≠ 0x0#4 ∧ kind ≠ 0x1#4 ∧ kind ≠ 0x2#4 ∧ kind ≠ 0x3#4 ∧ ¬ kind ≤ 0x7#4 ∧ kind ≠ 0x8#4
      ∧ kind ≠ 0x9#4 ∧ ¬ kind ≤ 0xB#4 := by
    simp only [Instr.wellFormed] at h; revert kind; decide
  simp only [decodeCmd, kindOf_cmdWordOf, tickOf_cmdWordOf, above, if_false]

/-- Read addresses 0xE and 0xF (R85). -/
theorem decodeRead_rdReserved {addr : BitVec 4} (h : (Instr.rdReserved addr).wellFormed = true) :
    decodeRead addr = .rdReserved addr := by
  simp only [Instr.wellFormed] at h; revert addr; decide

/-- A row of one KIND is matched exactly, a reserved group by its range, and every read address is one row's. -/
theorem decode_encode {i : Instr} (h : i.wellFormed = true) : decode (encode i) = i := by
  cases i with
  | fall tick | rise tick | timeout tick | rsvCmd3 tick | attach tick | cleanup tick =>
    simp [encode, decode, decodeCmd]
  | rsvCmd4To7 kind tick => exact decodeCmd_rsvCmd4To7 tick h
  | rsvCmdAToB kind tick => exact decodeCmd_rsvCmdAToB tick h
  | rsvCmdCToF kind tick => exact decodeCmd_rsvCmdCToF tick h
  | rdReserved addr => exact decodeRead_rdReserved h
  | rdSnap | rdLHum | rdLTemp | rdLTovLo | rdLTovHi | rdLStaleLo | rdLStaleHi | rdCntBadcs | rdCntShort
  | rdCntMissing | rdCntReset | rdStatus | rdFrameData | rdFrameCs => rfl

/-! ### A cycle with one port word -/

/-- The cycle asserts neither `rst` nor the other port, so nothing of it is left for a second step (R72, R80). -/
theorem present_of_cycleOf {s : State} {wall : Wall} {pw : PortWord} {rest : List PortCycle}
    (h : s.inputs = cycleOf wall pw :: rest) :
    present s = .operation (decode pw) { s with wallNow := wall, inputs := rest } := by
  cases pw with
  | cmd w => simp [present, h, cycleOf, decode]
  | rd addr => simp [present, h, cycleOf, decode, afterRead]

/-- Such a cycle's step performs the word's operation, whichever of the two ports presents it (R12, R71). -/
theorem step_of_cycleOf {s : State} {wall : Wall} {pw : PortWord} {rest : List PortCycle}
    (h : s.inputs = cycleOf wall pw :: rest) :
    step s = exec (decode pw) { s with wallNow := wall, inputs := rest } := by
  simp only [step, present_of_cycleOf h]

/-- Settles O4: the cycle performs what its port word decodes to, which is the operation the word encodes. -/
theorem stepRunsPresentedOperation : Obligations.StepRunsPresentedOperation := by
  intro i s wall rest hwf hin
  rw [step_of_cycleOf hin, decode_encode hwf]

end Sys2Proof
end

section
/-! PROOFS. The operations that write several registers, each as the record of what it writes, and the numbers they
write: laws that complete Laws/Ops.lean. -/

namespace Sys2Proof.Machine

open Sys2Proof

/-! ### Numbers -/

/-- The interval of an edge is the time elapsed since the latest rise (R100). -/
theorem interval_eq_elapsed (t l : Tick) : interval t l = elapsed l t := by
  have := l.isLt
  simp only [interval, elapsed, BitVec.toNat_sub]
  omega

/-- A counter counts by one below its maximum and stays at it (R40). -/
theorem satInc_toNat {n : Nat} (c : BitVec n) : (satInc c).toNat = min (c.toNat + 1) (2 ^ n - 1) := by
  unfold satInc
  split_ifs with h
  · simp [h]
  · have below : c.toNat ≠ 2 ^ n - 1 := fun e => h (BitVec.eq_of_toNat_eq (by simpa using e))
    have hc := c.isLt
    have one : (1#n).toNat = 1 := Nat.mod_eq_of_lt (by omega)
    rw [BitVec.toNat_add_of_lt (by omega), one]
    omega

/-- A 15-bit magnitude, negated or not, is never 0x8000 (R33, R152). -/
theorem temperatureOf_ne (th tl : Byte) : temperatureOf th tl ≠ 0x8000#16 := by
  have bound : (magnitudeOf th tl).toNat < 2 ^ 15 := by
    have := tl.isLt
    rw [magnitudeOf_toNat]
    omega
  unfold temperatureOf
  split_ifs <;> bv_omega

/-! ### What the operations write -/

/-- A short message writes CNT_SHORT and STREAK (R173). -/
@[simp] theorem shortMessage_eq (s : State) : shortMessage s =
    { s with cntShort := satInc s.cntShort, streak := 0#2, outputs := { disarm := true } } := rfl

/-- A fully received message writes STREAK (R174). -/
@[simp] theorem fullMessage_eq (s : State) : fullMessage s =
    { s with streak := 0#2, outputs := { disarm := true } } := rfl

/-- A reserved kind writes CMDERR (R193). -/
@[simp] theorem State.noteReserved_eq (s : State) : s.noteReserved = { s with cmdErr := true, outputs := {} } := rfl

/-- A pulse writes the frame, POISON and P (R122 to R125). -/
theorem takePulse_eq (c : Pulse) (s : State) : takePulse c s = { s with
    hh := (s.routeBit (bitval c)).hh, hl := (s.routeBit (bitval c)).hl, th := (s.routeBit (bitval c)).th,
    tl := (s.routeBit (bitval c)).tl, cs := (s.routeBit (bitval c)).cs,
    poison := s.poison || isCorrupt c, p := s.p + 1 } := by
  unfold takePulse State.routeBit
  split_ifs <;> rfl

/-- A pulse keeps every register outside the frame, POISON and P, LAST_RISE with them (R122). -/
@[simp] theorem takePulse_keeps (c : Pulse) (s : State) :
    (takePulse c s).lastRise = s.lastRise ∧ (takePulse c s).riseSeen = s.riseSeen
    ∧ (takePulse c s).streak = s.streak ∧ (takePulse c s).attached = s.attached
    ∧ (takePulse c s).cmdErr = s.cmdErr ∧ (takePulse c s).valid = s.valid ∧ (takePulse c s).hum = s.hum
    ∧ (takePulse c s).temp = s.temp ∧ (takePulse c s).tov = s.tov ∧ (takePulse c s).cntBadcs = s.cntBadcs
    ∧ (takePulse c s).cntShort = s.cntShort ∧ (takePulse c s).cntMissing = s.cntMissing
    ∧ (takePulse c s).cntReset = s.cntReset ∧ (takePulse c s).lValid = s.lValid ∧ (takePulse c s).lHum = s.lHum
    ∧ (takePulse c s).lTemp = s.lTemp ∧ (takePulse c s).lTov = s.lTov ∧ (takePulse c s).lStale = s.lStale
    ∧ (takePulse c s).wallNow = s.wallNow := by
  simp [takePulse_eq]

/-- A pulse advances P (R128). -/
@[simp] theorem takePulse_p (c : Pulse) (s : State) : (takePulse c s).p = s.p + 1 := rfl

/-- A completion keeps every register but STREAK, the Reading Store and CNT_BADCS (R127, R154). -/
@[simp] theorem completeFrame_keeps (s : State) :
    (completeFrame s).p = s.p ∧ (completeFrame s).hh = s.hh ∧ (completeFrame s).hl = s.hl
    ∧ (completeFrame s).th = s.th ∧ (completeFrame s).tl = s.tl ∧ (completeFrame s).cs = s.cs
    ∧ (completeFrame s).poison = s.poison ∧ (completeFrame s).lastRise = s.lastRise
    ∧ (completeFrame s).riseSeen = s.riseSeen ∧ (completeFrame s).attached = s.attached
    ∧ (completeFrame s).cmdErr = s.cmdErr ∧ (completeFrame s).cntShort = s.cntShort
    ∧ (completeFrame s).cntMissing = s.cntMissing ∧ (completeFrame s).cntReset = s.cntReset
    ∧ (completeFrame s).lValid = s.lValid ∧ (completeFrame s).lHum = s.lHum ∧ (completeFrame s).lTemp = s.lTemp
    ∧ (completeFrame s).lTov = s.lTov ∧ (completeFrame s).lStale = s.lStale := by
  simp [completeFrame]

/-- A completion clears STREAK and asserts DISARM, whatever the validation says (R127). -/
@[simp] theorem completeFrame_writes (s : State) :
    (completeFrame s).streak = 0#2 ∧ (completeFrame s).outputs = { disarm := true } := by
  simp [completeFrame]

/-- A completing FALL publishes the frame that now stands, when it passes (R150 to R153), and keeps CNT_BADCS; or it
counts a bad checksum and keeps the Reading Store (R154). -/
theorem completingFall_cases (c : Pulse) {s u : State} (e : completeFrame (takePulse c s) = u) :
    (u.poison = false ∧ u.hh + u.hl + u.th + u.tl = u.cs ∧ u.hum = u.hh ++ u.hl ∧ u.temp = temperatureOf u.th u.tl
      ∧ u.tov = s.wallNow ∧ u.valid = true ∧ u.cntBadcs = s.cntBadcs)
    ∨ ((u.poison = true ∨ u.hh + u.hl + u.th + u.tl ≠ u.cs) ∧ u.cntBadcs = satInc s.cntBadcs
      ∧ u.hum = s.hum ∧ u.temp = s.temp ∧ u.tov = s.tov ∧ u.valid = s.valid) := by
  subst e
  obtain ⟨pass, e⟩ | ⟨fail, e⟩ := completeFrame_cases (takePulse c s)
  · obtain ⟨clean, sum⟩ := (framePasses_iff _).1 pass
    exact Or.inl (by simp [e, clean, sum, humidityOf])
  · have bad := (framePasses_iff (takePulse c s)).not.1 (by simp [fail])
    rw [not_and_or, Bool.not_eq_false] at bad
    exact Or.inr (by simpa [e] using bad)

/-- A missing message keeps every register but STREAK, CNT_MISSING and CNT_RESET (R171, R175). -/
@[simp] theorem missingMessage_keeps (s : State) :
    (missingMessage s).p = s.p ∧ (missingMessage s).lastRise = s.lastRise
    ∧ (missingMessage s).riseSeen = s.riseSeen ∧ (missingMessage s).attached = s.attached
    ∧ (missingMessage s).cmdErr = s.cmdErr ∧ (missingMessage s).valid = s.valid ∧ (missingMessage s).hum = s.hum
    ∧ (missingMessage s).temp = s.temp ∧ (missingMessage s).tov = s.tov
    ∧ (missingMessage s).cntBadcs = s.cntBadcs ∧ (missingMessage s).cntShort = s.cntShort
    ∧ (missingMessage s).lValid = s.lValid ∧ (missingMessage s).lHum = s.lHum ∧ (missingMessage s).lTemp = s.lTemp
    ∧ (missingMessage s).lTov = s.lTov ∧ (missingMessage s).lStale = s.lStale := by
  obtain ⟨-, e⟩ | ⟨-, e⟩ := missingMessage_cases s <;> simp [e]

/-- A missing message asserts DISARM, and PWRCYC when it escalates (R171, R172). -/
@[simp] theorem missingMessage_outputs (s : State) :
    (missingMessage s).outputs = { disarm := true, pwrcyc := decide (2 ≤ s.streak.toNat) } := by
  obtain ⟨h, e⟩ | ⟨h, e⟩ := missingMessage_cases s <;> simp [e, h]

end Sys2Proof.Machine
end

section
/-! PROOFS. Which operation writes which register (R22 to R38, R247): one case analysis over `exec_cases` per register
group, in which every operation but the named ones keeps the group. -/

namespace Sys2Proof

open Sys2Proof.Machine

/-- Settles O30: of the operations that reach STREAK two are the named ones; the rest keep it. -/
theorem streakChangesOnlyByTimeoutAndCompletion : Obligations.StreakChangesOnlyByTimeoutAndCompletion := by
  intro i s u h changed
  cases exec_cases h with
  | timeoutMissing k ha | timeoutShort k ha | timeoutFull k ha => exact Or.inl ⟨k, rfl, ha⟩
  | fallLast k ha hp => exact Or.inr ⟨k, rfl, ha, hp, by simp⟩
  | _ => simp at changed

/-- Settles O44: a start condition and the two kinds of accepted FALL write P, and every other case keeps it. -/
theorem positionWrittenOnlyByStartAndFall : Obligations.PositionWrittenOnlyByStartAndFall := by
  intro i s u h
  cases exec_cases h with
  | riseStart k ha start =>
    rw [isStart_iff, interval_eq_elapsed] at start
    exact Or.inr (Or.inl ⟨rfl, k, rfl, ha, start⟩)
  | fallBit k ha hp => exact Or.inr (Or.inr ⟨rfl, hp, ha, k, rfl⟩)
  | fallLast k ha hp => exact Or.inr (Or.inr ⟨by simp, by omega, ha, k, rfl⟩)
  | _ => exact Or.inl (by simp)

/-- An accepted RISE at tick `t` notes `t`, whether or not it starts a frame (R120). -/
theorem execRise_notes (t : BitVec 32) {s : State} (ha : s.attached = true) :
    ∃ u, exec (.rise t) s = .next u ∧ u.lastRise = t ∧ u.riseSeen = true := by
  obtain ⟨hd, -⟩ | ⟨-, -, e⟩ | ⟨-, -, e⟩ := execRise_cases t s
  · simp [hd] at ha
  · exact ⟨_, e, rfl, rfl⟩
  · exact ⟨_, e, rfl, rfl⟩

/-- Settles O46: both branches of an accepted RISE note its tick, and only these two cases write either register. -/
theorem riseTimingWrittenOnlyByAcceptedRise : Obligations.RiseTimingWrittenOnlyByAcceptedRise := by
  refine ⟨fun t s => execRise_notes t, fun i s u h => ?_⟩
  cases exec_cases h with
  | riseStart k ha | riseOther k ha => exact Or.inr ⟨ha, k, rfl⟩
  | _ => exact Or.inl (by simp)

/-- Settles O47: only a completion reaches the Reading Store, and it writes all of it or none. -/
theorem readingStoreChangesOnlyTogether : Obligations.ReadingStoreChangesOnlyTogether := by
  intro i s u h
  cases exec_cases h with
  | fallLast k ha hp =>
    obtain ⟨clean, sum, hum, temp, tov, valid, -⟩ | ⟨-, -, kept⟩ :=
      completingFall_cases (classify (interval k s.lastRise)) (s := s) rfl
    · exact Or.inr ⟨⟨k, rfl⟩, ha, hp, clean, sum, hum, temp, tov, valid⟩
    · exact Or.inl kept
  | _ => exact Or.inl (by simp)

/-! ### The counters (R35, R40) -/

/-- Settles O28: the law of the increment. -/
theorem counterSaturates : Obligations.CounterSaturates :=
  fun _ c => satInc_toNat c

/-- CNT_BADCS counts the completed frames that fail (R154). -/
theorem exec_cntBadcs {i : Instr} {s u : State} (h : exec i s = .next u) :
    u.cntBadcs = s.cntBadcs
    ∨ (u.cntBadcs = satInc s.cntBadcs ∧ s.attached = true ∧ s.p = 39
        ∧ (u.poison = true ∨ u.hh + u.hl + u.th + u.tl ≠ u.cs) ∧ ∃ k, i = .fall k) := by
  cases exec_cases h with
  | fallLast k ha hp =>
    obtain ⟨-, -, -, -, -, -, kept⟩ | ⟨bad, counted, -⟩ :=
      completingFall_cases (classify (interval k s.lastRise)) (s := s) rfl
    · exact Or.inl kept
    · exact Or.inr ⟨counted, ha, hp, bad, k, rfl⟩
  | _ => exact Or.inl (by simp)

/-- CNT_SHORT counts the short messages (R173). -/
theorem exec_cntShort {i : Instr} {s u : State} (h : exec i s = .next u) :
    u.cntShort = s.cntShort
    ∨ (u.cntShort = satInc s.cntShort ∧ s.attached = true ∧ 8 ≤ s.p ∧ s.p < 39 ∧ ∃ k, i = .timeout k) := by
  cases exec_cases h with
  | timeoutShort k ha hp hq => exact Or.inr ⟨rfl, ha, hp, hq, k, rfl⟩
  | _ => exact Or.inl (by simp)

/-- CNT_MISSING counts the missing messages (R171). -/
theorem exec_cntMissing {i : Instr} {s u : State} (h : exec i s = .next u) :
    u.cntMissing = s.cntMissing
    ∨ (u.cntMissing = satInc s.cntMissing ∧ s.attached = true ∧ s.p < 8 ∧ ∃ k, i = .timeout k) := by
  cases exec_cases h with
  | timeoutMissing k ha hp =>
    obtain ⟨-, e⟩ | ⟨-, e⟩ := missingMessage_cases s <;> exact Or.inr ⟨by rw [e], ha, hp, k, rfl⟩
  | _ => exact Or.inl (by simp)

/-- CNT_RESET counts the escalations (R172). -/
theorem exec_cntReset {i : Instr} {s u : State} (h : exec i s = .next u) :
    u.cntReset = s.cntReset
    ∨ (u.cntReset = satInc s.cntReset ∧ s.attached = true ∧ s.p < 8 ∧ 2 ≤ s.streak.toNat ∧ ∃ k, i = .timeout k) := by
  cases exec_cases h with
  | timeoutMissing k ha hp =>
    obtain ⟨-, e⟩ | ⟨full, e⟩ := missingMessage_cases s
    · exact Or.inl (by rw [e])
    · exact Or.inr ⟨by rw [e], ha, hp, full, k, rfl⟩
  | _ => exact Or.inl (by simp)

/-- Settles O48: each counter's own law, its increment read as a number. -/
theorem countersChangeOnlyInTheirEvents : Obligations.CountersChangeOnlyInTheirEvents := by
  refine ⟨⟨rfl, rfl, rfl, rfl⟩, fun i s u h => ?_⟩
  simp only [← satInc_toNat, ← BitVec.toNat_eq]
  exact ⟨exec_cntBadcs h, exec_cntShort h, exec_cntMissing h, exec_cntReset h⟩

/-! ### The control flags and the latch (R29, R30, R36) -/

/-- ATTACH sets ATTACHED, CLEANUP clears it, and no other operation writes it (R29). -/
theorem exec_attached_written {i : Instr} {s u : State} (h : exec i s = .next u) :
    u.attached = s.attached ∨ (u.attached = true ∧ ∃ k, i = .attach k) ∨ (u.attached = false ∧ ∃ k, i = .cleanup k) := by
  rw [exec_attached h]
  cases i with
  | attach k => exact Or.inr (Or.inl ⟨rfl, k, rfl⟩)
  | cleanup k => exact Or.inr (Or.inr ⟨rfl, k, rfl⟩)
  | _ => exact Or.inl rfl

/-- The reserved kinds are the four groups of R82. -/
theorem isReservedCmd_iff (i : Instr) : isReservedCmd i = true
    ↔ ∃ k t, i = .rsvCmd3 t ∨ i = .rsvCmd4To7 k t ∨ i = .rsvCmdAToB k t ∨ i = .rsvCmdCToF k t := by
  cases i <;> simp [isReservedCmd]

/-- Settles O50: ATTACHED follows its own law, and CMDERR is written in the one case of the reserved kinds. -/
theorem controlFlagsWrittenOnlyByTheirCommands : Obligations.ControlFlagsWrittenOnlyByTheirCommands := by
  intro i s u h
  refine ⟨exec_attached_written h, ?_⟩
  cases exec_cases h with
  | reserved i hi => exact Or.inr ⟨rfl, (isReservedCmd_iff i).1 hi⟩
  | _ => exact Or.inl (by simp)

/-- Settles O51: only the case of SNAP loads the latch. -/
theorem latchWrittenOnlyBySnap : Obligations.LatchWrittenOnlyBySnap := by
  refine ⟨⟨rfl, rfl, rfl, rfl, rfl⟩, fun i s u h noSnap => ?_⟩
  cases exec_cases h with
  | snap => exact absurd rfl noSnap
  | _ => simp

/-! ### The pulses (R247) -/

/-- DISARM is asserted on completion, on an accepted TIMEOUT and on CLEANUP while attached. -/
theorem exec_disarm_iff {i : Instr} {s u : State} (h : exec i s = .next u) :
    u.outputs.disarm = true ↔ s.attached = true
      ∧ ((s.p = 39 ∧ ∃ k, i = .fall k) ∨ (∃ k, i = .timeout k) ∨ ∃ k, i = .cleanup k) := by
  cases exec_cases h with
  | fallIdle k ha hp => simp [show s.p ≠ 39 by omega]
  | reserved i hi => cases i <;> simp [isReservedCmd] at hi ⊢
  | plainRead i w hi => cases i <;> simp [isPlainRead] at hi ⊢
  | _ => simp [*]

/-- PWRCYC is asserted on escalation. -/
theorem exec_pwrcyc_iff {i : Instr} {s u : State} (h : exec i s = .next u) :
    u.outputs.pwrcyc = true ↔ s.attached = true ∧ s.p < 8 ∧ 2 ≤ s.streak.toNat ∧ ∃ k, i = .timeout k := by
  cases exec_cases h with
  | timeoutShort k ha hp | timeoutFull k ha hp => simp [show ¬ s.p < 8 by omega]
  | reserved i hi => cases i <;> simp [isReservedCmd] at hi ⊢
  | plainRead i w hi => cases i <;> simp [isPlainRead] at hi ⊢
  | _ => simp [*]

/-- Settles O52: the laws of the two pulses. -/
theorem pulsesAssertedExactlyWhenEmitted : Obligations.PulsesAssertedExactlyWhenEmitted :=
  fun _ _ _ h => ⟨exec_disarm_iff h, exec_pwrcyc_iff h⟩

end Sys2Proof
end

section
/-! PROOFS. The STATUS word and the level outputs (R38, R41, R221, R248). -/

namespace Sys2Proof

open Sys2Proof.Machine

/-- PQ holds P + 2 at every position the machine can hold (R22). -/
theorem pqOf_toNat {p : Int} (low : -2 ≤ p) (high : p ≤ 40) : ((pqOf p).toNat : Int) = p + 2 := by
  simp only [pqOf, BitVec.toNat_ofInt]
  omega

/-- The flags of STATUS, bit by bit. -/
theorem statusWord_flags (s : State) :
    (statusWord s).getLsbD 0 = s.valid ∧ (statusWord s).getLsbD 1 = s.attached ∧ (statusWord s).getLsbD 2 = s.poison
    ∧ (statusWord s).getLsbD 3 = s.riseSeen ∧ (statusWord s).getLsbD 4 = s.cmdErr := by
  simp only [statusWord, BitVec.getLsbD_append]
  simp

/-- The fields of STATUS above its flags: an append is read in its low part or in its high part. -/
theorem statusWord_fields (s : State) :
    (statusWord s).extractLsb' 5 3 = 0#3 ∧ (statusWord s).extractLsb' 8 6 = pqOf s.p
    ∧ (statusWord s).extractLsb' 14 2 = 0#2 ∧ (statusWord s).extractLsb' 16 2 = s.streak
    ∧ (statusWord s).extractLsb' 18 14 = 0#14 := by
  simp (disch := omega) only [statusWord, BitVec.extractLsb'_append_eq_of_le, BitVec.extractLsb'_append_eq_of_add_le]
  simp

/-- Settles O39: a read of the present state is the STATUS word of it, and that word has its fields in place. -/
theorem statusReadHasItsFields : Obligations.StatusReadHasItsFields := by
  refine ⟨rfl, rfl, fun s => ⟨statusWord s, rfl, ?_⟩⟩
  obtain ⟨valid, attached, poison, riseSeen, cmdErr⟩ := statusWord_flags s
  obtain ⟨zeroLow, pq, zeroMid, streak, zeroHigh⟩ := statusWord_fields s
  refine ⟨valid, attached, poison, riseSeen, cmdErr, zeroLow, fun low high => ?_, zeroMid, streak, zeroHigh⟩
  rw [pq, pqOf_toNat low high]

/-- Settles O12: both levels are wires, with no state of their own. -/
theorem levelOutputsFollowTheState : Obligations.LevelOutputsFollowTheState :=
  fun _ => ⟨rfl, rfl⟩

end Sys2Proof
end

section
/-! PROOFS. The invariant of R42 with the range of TEMP (R33), and TOV under a clock that does not decrease (R284):
each operation keeps them, and so does each step, whose cycle changes the ports alone before the operation. -/

namespace Sys2Proof

open Sys2Proof.Machine

/-! ### The invariant (R42) -/

/-- Settles O54: at reset P is idle, and the store and the latch are empty. -/
theorem resetMeetsInvariant : Obligations.ResetMeetsInvariant where
  positionLow := by decide
  positionHigh := by decide
  streakBound := by decide
  storeEmpty := fun _ => ⟨rfl, rfl, rfl⟩
  latchEmpty := fun _ => ⟨rfl, rfl, rfl, rfl⟩
  riseBeforeFrame := by decide
  tempRange := by decide
  latchTempRange := by decide

/-- The invariant does not speak of the ports. -/
theorem Inv.withPorts {s : State} (h : Inv s) (ins : List PortCycle) (wall : Wall) (o : Outputs) :
    Inv { s with inputs := ins, wallNow := wall, outputs := o } :=
  { h with }

/-- A pulse below P = 40 leaves P at most 40, and a frame was in progress already (R42 (a), (e)). -/
theorem Inv.takePulse {s : State} (h : Inv s) (c : Pulse) (hp : s.p < 40) : Inv (takePulse c s) := by
  have low := h.positionLow
  rw [takePulse_eq]
  exact { h with
    positionLow := show -2 ≤ s.p + 1 by omega
    positionHigh := show s.p + 1 ≤ 40 by omega
    riseBeforeFrame := fun _ => h.riseBeforeFrame hp }

/-- A publish sets VALID with a TEMP in its range; a bad checksum leaves the store as it was (R42 (c), R33). -/
theorem Inv.completeFrame {s : State} (h : Inv s) : Inv (completeFrame s) := by
  obtain ⟨-, e⟩ | ⟨-, e⟩ := completeFrame_cases s <;> rw [e]
  · exact { h with
      streakBound := Nat.zero_le 2
      storeEmpty := nofun
      tempRange := temperatureOf_ne s.th s.tl }
  · exact { h with streakBound := Nat.zero_le 2 }

/-- The streak grows only below 2 (R42 (b)). -/
theorem Inv.missingMessage {s : State} (h : Inv s) : Inv (missingMessage s) := by
  obtain ⟨room, e⟩ | ⟨-, e⟩ := missingMessage_cases s <;> rw [e]
  · exact { h with streakBound := show (s.streak + 1#2).toNat ≤ 2 by bv_omega }
  · exact { h with streakBound := Nat.zero_le 2 }

/-- The latch takes over what holds of the store, with staleness 0 for "never" (R42 (d), R210). -/
theorem Inv.loadLatch {s : State} (h : Inv s) : Inv s.loadLatch :=
  { h with
    latchEmpty := fun never =>
      have ⟨hum, temp, tov⟩ := h.storeEmpty never
      ⟨hum, temp, tov, if_neg (Bool.eq_false_iff.1 never)⟩
    latchTempRange := h.tempRange }

/-- Every operation keeps the invariant: each part rests on the registers that the operation writes. -/
theorem exec_keeps_inv {i : Instr} {s u : State} (h : Inv s) (e : exec i s = .next u) : Inv u := by
  cases exec_cases e with
  | riseStart =>
    exact { h with
      positionLow := show (-2 : Int) ≤ -2 by decide
      positionHigh := show (-2 : Int) ≤ 40 by decide
      riseBeforeFrame := fun _ => rfl }
  | riseOther => exact { h with riseBeforeFrame := fun _ => rfl }
  | fallBit k ha hp => exact { h.takePulse _ hp with }
  | fallLast k ha hp => exact (h.takePulse _ (by omega)).completeFrame
  | timeoutMissing => exact h.missingMessage
  | timeoutShort | timeoutFull => exact { h with streakBound := Nat.zero_le 2 }
  | snap => exact { h.loadLatch with }
  | _ => exact { h with }

/-- Settles O55: a step is the reset state, an operation, or no operation, with the ports moved on. -/
theorem stepKeepsInvariant : Obligations.StepKeepsInvariant := by
  intro s t h hs
  obtain ⟨-, rfl⟩ | ⟨c, rest, -, ⟨-, rfl⟩ | ⟨-, -, e⟩ | ⟨-, -, -, e⟩ | ⟨-, -, -, rfl⟩⟩ := step_cases hs
  · exact h.withPorts ..
  · exact resetMeetsInvariant.withPorts ..
  · exact exec_keeps_inv (h.withPorts ..) e
  · exact exec_keeps_inv (h.withPorts ..) e
  · exact h.withPorts ..

/-! ### The host's clock (R284) -/

/-- The next cycle's clock is no earlier than the present one, and is the present one once that cycle is taken. -/
theorem ClockMonotone.next {s : State} {c : PortCycle} {rest : List PortCycle} (h : ClockMonotone s)
    (hin : s.inputs = c :: rest) :
    s.wallNow.toNat ≤ c.wallNow.toNat ∧ ClockMonotone { s with inputs := rest, wallNow := c.wallNow } := by
  rw [ClockMonotone, hin, List.map_cons, List.pairwise_cons] at h
  exact ⟨h.1 _ List.mem_cons_self, h.2⟩

/-- A command left of the cycle whose read is performed keeps that cycle's clock (R72). -/
theorem ClockMonotone.afterRead {s : State} {c : PortCycle} {rest : List PortCycle}
    (h : ClockMonotone { s with inputs := rest, wallNow := c.wallNow }) :
    ClockMonotone { s with inputs := afterRead c rest, wallNow := c.wallNow } := by
  unfold ClockMonotone Machine.afterRead
  split_ifs
  · exact List.pairwise_cons.2 ⟨List.forall_mem_cons.2 ⟨le_rfl, (List.pairwise_cons.1 h).1⟩, h⟩
  · exact h

/-- Every operation keeps both: it leaves the ports alone, and writes TOV, if at all, with the present clock (R153). -/
theorem exec_keeps_clock {i : Instr} {s u : State} (mono : ClockMonotone s) (past : TovInPast s)
    (h : exec i s = .next u) : ClockMonotone u ∧ TovInPast u := by
  obtain ⟨ins, wall⟩ := exec_keeps_ports h
  rw [ClockMonotone, TovInPast, ins, wall]
  refine ⟨mono, ?_⟩
  obtain ⟨-, -, tov, valid⟩ | ⟨-, -, -, -, -, -, -, tov, -⟩ := readingStoreChangesOnlyTogether i s u h
  · rw [tov, valid]
    exact past
  · rw [tov]
    exact fun _ => le_rfl

/-- Settles O56: the cycle's clock is no earlier than TOV, and the operation of the cycle keeps that. -/
theorem monotoneClockKeepsTovInThePast : Obligations.MonotoneClockKeepsTovInThePast := by
  intro s t mono past hs
  obtain ⟨-, rfl⟩ | ⟨c, rest, hin, cycle⟩ := step_cases hs
  · exact ⟨mono, past⟩
  obtain ⟨later, mono⟩ := mono.next hin
  have past : s.valid = true → s.tov.toNat ≤ c.wallNow.toNat := fun hv => (past hv).trans later
  obtain ⟨-, rfl⟩ | ⟨-, -, e⟩ | ⟨-, -, -, e⟩ | ⟨-, -, -, rfl⟩ := cycle
  · exact ⟨mono, nofun⟩
  · exact exec_keeps_clock mono.afterRead past e
  · exact exec_keeps_clock mono past e
  · exact ⟨mono, past⟩

end Sys2Proof
end

section
/-! PROOFS. Operations in a row over the ports: every operation completes, and what is still to be presented has no
effect on it (R12, R71), so a run over presented operations is those operations in their order, and a read comes before
the command beside it. -/

namespace Sys2Proof

open Sys2Proof.Machine

/-! ### Every operation completes (R240) -/

/-- Whichever branch of its meaning an operation takes, the branch answers a next state. -/
theorem exec_completes (i : Instr) (s : State) : ∃ u, exec i s = .next u := by
  cases i with
  | fall k => obtain ⟨-, e⟩ | ⟨-, -, e⟩ | ⟨-, -, -, e⟩ | ⟨-, -, e⟩ := execFall_cases k s <;> exact ⟨_, e⟩
  | rise k => obtain ⟨-, e⟩ | ⟨-, -, e⟩ | ⟨-, -, e⟩ := execRise_cases k s <;> exact ⟨_, e⟩
  | timeout k => obtain ⟨-, e⟩ | ⟨-, -, e⟩ | ⟨-, -, -, e⟩ | ⟨-, -, e⟩ := execTimeout_cases k s <;> exact ⟨_, e⟩
  | cleanup k => obtain ⟨-, e⟩ | ⟨-, e⟩ := execCleanup_cases k s <;> exact ⟨_, e⟩
  | _ => exact ⟨_, rfl⟩

/-! ### What is still to be presented (R12) -/

/-- A pulse does not read the cycles to come. -/
theorem takePulse_withInputs (c : Pulse) (s : State) (ins : List PortCycle) :
    takePulse c { s with inputs := ins } = { takePulse c s with inputs := ins } := by
  unfold takePulse State.routeBit
  split_ifs <;> rfl

/-- A completion does not read them. -/
theorem completeFrame_withInputs (s : State) (ins : List PortCycle) :
    completeFrame { s with inputs := ins } = { completeFrame s with inputs := ins } := by
  change (if framePasses s then _ else _) = { (if framePasses s then _ else _ : State) with inputs := ins }
  split_ifs <;> rfl

/-- An accepted RISE does not read them. -/
theorem acceptRise_withInputs (t : Tick) (s : State) (ins : List PortCycle) :
    acceptRise t { s with inputs := ins } = { acceptRise t s with inputs := ins } := by
  have same : isStart t { s with inputs := ins } = isStart t s := rfl
  unfold acceptRise
  rw [same]
  split_ifs <;> rfl

/-- A missing message does not read them. -/
theorem missingMessage_withInputs (s : State) (ins : List PortCycle) :
    missingMessage { s with inputs := ins } = { missingMessage s with inputs := ins } := by
  unfold missingMessage
  split_ifs <;> rfl

/-- An operation answers the same whatever is still to be presented, and leaves it so. -/
theorem exec_withInputs {i : Instr} {s u : State} (ins : List PortCycle) (h : exec i s = .next u) :
    exec i { s with inputs := ins } = .next { u with inputs := ins } := by
  cases i with
  | fall k =>
    simp only [exec, execFall, acceptFall, takePulse_withInputs, completeFrame_withInputs] at h ⊢
    split_ifs at h ⊢ <;> cases h <;> rfl
  | rise k =>
    simp only [exec, execRise, acceptRise_withInputs] at h ⊢
    split_ifs at h ⊢ <;> cases h <;> rfl
  | timeout k =>
    simp only [exec, execTimeout, acceptTimeout, missingMessage_withInputs] at h ⊢
    split_ifs at h ⊢ <;> cases h <;> rfl
  | cleanup k =>
    simp only [exec, execCleanup] at h ⊢
    split_ifs at h ⊢ <;> cases h <;> rfl
  | _ => cases h; rfl

/-- Settles O9: by induction on the operations; each step performs the next one at a state whose further cycles the
operation does not read. -/
theorem runPerformsPresentedOperationsInOrder : Obligations.RunPerformsPresentedOperationsInOrder := by
  intro ops
  induction ops with
  | nil => exact fun _ _ => rfl
  | cons i is ih =>
    intro s hwf
    obtain ⟨hi, his⟩ := List.forall_mem_cons.1 hwf
    obtain ⟨u, hu⟩ := exec_completes i { s with inputs := [] }
    have hstep : step { s with inputs := (i :: is).map fun j => cycleOf s.wallNow (encode j) }
        = .next { u with inputs := is.map fun j => cycleOf s.wallNow (encode j) } := by
      rw [stepRunsPresentedOperation i _ s.wallNow _ hi rfl]
      exact exec_withInputs (s := { s with inputs := [] }) _ hu
    obtain ⟨noInputs : u.inputs = [], sameWall : u.wallNow = s.wallNow⟩ := exec_keeps_ports hu
    rw [execAll_cons hu, List.length_cons, run_succ (M := core) hstep, ← sameWall, ih u his, ← noInputs]

/-! ### A cycle with a read and a command (R72) -/

/-- The read of a cycle is what its step performs, with the command of the cycle, if any, left for the next. -/
theorem step_of_read {s : State} {c : PortCycle} {rest : List PortCycle} (hin : s.inputs = c :: rest)
    (hrst : c.rst = false) (hrd : c.rdEn = true) :
    step s = exec (decodeRead c.rdAddr) { s with inputs := afterRead c rest, wallNow := c.wallNow } := by
  simp [step, present, hin, hrst, hrd]

/-- The command of a cycle without a read is what its step performs. -/
theorem step_of_command {s : State} {c : PortCycle} {rest : List PortCycle} (hin : s.inputs = c :: rest)
    (hrst : c.rst = false) (hrd : c.rdEn = false) (hcmd : c.cmdValid = true) :
    step s = exec (decodeCmd c.cmdWord) { s with inputs := rest, wallNow := c.wallNow } := by
  simp [step, present, hin, hrst, hrd, hcmd]

/-- Settles O7: the read leaves its cycle with the command alone, which the next step then performs. -/
theorem sameCycleReadPrecedesCommand : Obligations.SameCycleReadPrecedesCommand := by
  intro s c rest hin hrst hrd hcmd
  have left : afterRead c rest = { c with rdEn := false } :: rest := by simp [afterRead, hcmd]
  obtain ⟨t, ht⟩ := exec_completes (decodeRead c.rdAddr) { s with inputs := afterRead c rest, wallNow := c.wallNow }
  obtain ⟨keptInputs : t.inputs = afterRead c rest, keptWall : t.wallNow = c.wallNow⟩ := exec_keeps_ports ht
  refine ⟨t, (step_of_read hin hrst hrd).trans ht, by rw [keptInputs, ht], ?_⟩
  rw [step_of_command (keptInputs.trans left) hrst rfl hcmd, ← keptWall]

end Sys2Proof
end

section
/-! PROOFS. The read port: a read other than SNAP writes no register, and SNAP's latch depends on the wall clock in
L_STALE alone (R70, R210). -/

namespace Sys2Proof

open Sys2Proof.Machine

/-- Address 0x0 alone is SNAP's (R85). -/
theorem decodeRead_isPlainRead {a : BitVec 4} (h : a ≠ 0x0#4) : isPlainRead (decodeRead a) = true := by
  revert a; decide

/-- A read other than SNAP answers a word and writes no register, so performed again it answers the same. -/
theorem exec_plainRead {i : Instr} (h : isPlainRead i = true) (s : State) :
    ∃ w, exec i s = .next (s.respond w) ∧ exec i (s.respond w) = .next (s.respond w) := by
  cases i with
  | rdLHum | rdLTemp | rdLTovLo | rdLTovHi | rdLStaleLo | rdLStaleHi | rdCntBadcs | rdCntShort | rdCntMissing
  | rdCntReset | rdStatus | rdFrameData | rdFrameCs | rdReserved => exact ⟨_, rfl, rfl⟩
  | _ => cases h

/-- The staleness of a reading, as a number (R210). -/
theorem stalenessOf_eq (s : State) : stalenessOf s =
    if s.valid = true then BitVec.ofNat 64 ((s.wallNow.toNat + 2 ^ 64 - s.tov.toNat) % 2 ^ 64) else 0#64 := by
  have := s.tov.isLt
  unfold stalenessOf
  split_ifs
  · apply BitVec.eq_of_toNat_eq
    simp only [BitVec.toNat_sub, BitVec.toNat_ofNat]
    omega
  · rfl

/-- Settles O41: a plain read writes rd_data alone; a second SNAP loads the same store at another clock. -/
theorem onlySnapHasAReadSideEffect : Obligations.OnlySnapHasAReadSideEffect := by
  refine ⟨fun a s ha => ?_, fun s wall => ⟨_, _, rfl, rfl, ?_⟩⟩
  · obtain ⟨w, once, again⟩ := exec_plainRead (decodeRead_isPlainRead ha) s
    exact ⟨_, once, rfl, again⟩
  · simp [State.loadLatch, State.respond, State.emit, stalenessOf_eq]

end Sys2Proof
end

section
/-! PROOFS. Numbers that the classifier and the conversion answer (R101 to R103, R151, R152), and what an accepted FALL
answers (R122, R127): laws that complete Laws/Ops.lean. -/

namespace Sys2Proof.Machine

open Sys2Proof

/-! ### The classifier (R101 to R103) -/

/-- The two thresholds (R6, R101). -/
theorem classify_eq (d : Nat) : classify d = if d < 50 then .zero else if d < 200 then .one else .corrupt := rfl

/-- The bit of a pulse is 1 from T_ONE on (R101, R102). -/
theorem bitval_classify (d : Nat) : bitval (classify d) = decide (50 ≤ d) := by
  rw [classify_eq]
  split_ifs
  · exact (decide_eq_false (by omega)).symm
  · exact (decide_eq_true (by omega)).symm
  · exact (decide_eq_true (by omega)).symm

/-- A pulse is Corrupt from T_CORRUPT on (R101, R103). -/
theorem isCorrupt_classify (d : Nat) : isCorrupt (classify d) = decide (200 ≤ d) := by
  rw [classify_eq]
  split_ifs
  · exact (decide_eq_false (by omega)).symm
  · exact (decide_eq_false (by omega)).symm
  · exact (decide_eq_true (by omega)).symm

/-! ### The conversion (R151, R152) -/

/-- Humidity, as a number. -/
theorem humidityOf_toNat (hh hl : Byte) : (humidityOf hh hl).toNat = 256 * hh.toNat + hl.toNat := by
  rw [humidityOf, BitVec.toNat_append, ← Nat.shiftLeft_add_eq_or_of_lt hl.isLt, Nat.shiftLeft_eq]
  omega

/-- Temperature, as a number: the magnitude is below 2^15, so neither it nor its negation wraps. -/
theorem temperatureOf_toInt (th tl : Byte) : (temperatureOf th tl).toInt =
    if th.toNat < 128 then 256 * (th.toNat : Int) + tl.toNat else -(256 * ((th.toNat : Int) - 128) + tl.toNat) := by
  have sign : th.getLsbD 7 = decide (128 ≤ th.toNat) := by revert th; decide
  have magnitude := magnitudeOf_toNat th tl
  have := th.isLt
  have := tl.isLt
  simp only [temperatureOf, sign, decide_eq_true_eq]
  rcases lt_or_ge th.toNat 128 with plus | minus
  · rw [if_neg (by omega), if_pos plus, BitVec.toInt_eq_toNat_of_lt (by omega)]
    omega
  · have noMin : magnitudeOf th tl ≠ BitVec.intMin 16 := fun e => by
      rw [e, show (BitVec.intMin 16).toNat = 2 ^ 15 from rfl] at magnitude
      omega
    rw [if_pos minus, if_neg (by omega), BitVec.zero_sub, BitVec.toInt_neg_of_ne_intMin noMin,
      BitVec.toInt_eq_toNat_of_lt (by omega)]
    omega

/-! ### An accepted FALL (R122, R127) -/

/-- Below P = 39 it takes its pulse and no more. -/
theorem exec_fall_bit {s : State} (k : BitVec 32) (ha : s.attached = true) (hp : s.p < 39) :
    exec (.fall k) s = .next (takePulse (classify (interval k s.lastRise)) s).quiet := by
  obtain ⟨hd, -⟩ | ⟨-, idle, -⟩ | ⟨-, -, -, e⟩ | ⟨-, last, -⟩ := execFall_cases k s
  · simp [hd] at ha
  · omega
  · exact e
  · omega

/-- At P = 39 it completes the frame with its pulse taken. -/
theorem exec_fall_last {s : State} (k : BitVec 32) (ha : s.attached = true) (hp : s.p = 39) :
    exec (.fall k) s = .next (completeFrame (takePulse (classify (interval k s.lastRise)) s)) := by
  obtain ⟨hd, -⟩ | ⟨-, idle, -⟩ | ⟨-, -, other, -⟩ | ⟨-, -, e⟩ := execFall_cases k s
  · simp [hd] at ha
  · omega
  · exact absurd hp other
  · exact e

end Sys2Proof.Machine
end

section
/-! PROOFS. The decoder as a whole (R64, R65, R129): the state after each pulse of a frame is written out as a function
of the bits taken, and the last pulse validates the frame they make. -/

namespace Sys2Proof

open Sys2Proof.Machine

/-! ### The field a train of bits makes (R64, R123, R124) -/

/-- The field whose bits are `bits base` to `bits (base + 7)`, after the first `n` bits of the train: those of them that
are the field's are shifted in, in their order. -/
def fieldAfter (bits : Nat → Bool) (base : Nat) : Nat → Byte
  | 0 => 0#8
  | n + 1 =>
    if base ≤ n ∧ n < base + 8 then shiftIn (fieldAfter bits base n) (bits n) else fieldAfter bits base n

/-- A bit of the field is shifted in. -/
theorem fieldAfter_inside (bits : Nat → Bool) {base n : Nat} (h : base ≤ n ∧ n < base + 8) :
    fieldAfter bits base (n + 1) = shiftIn (fieldAfter bits base n) (bits n) := if_pos h

/-- A bit of another field is no concern. -/
theorem fieldAfter_outside (bits : Nat → Bool) {base n : Nat} (h : ¬ (base ≤ n ∧ n < base + 8)) :
    fieldAfter bits base (n + 1) = fieldAfter bits base n := if_neg h

/-- Bit `j` of the field stands as many places up as bits of the field came after it: the first is the most
significant. -/
theorem fieldAfter_getLsbD (bits : Nat → Bool) (base : Nat) {j : Nat} (hj : j < 8) {n : Nat} (hn : base + j < n) :
    (fieldAfter bits base n).getLsbD (min (n - base) 8 - 1 - j) = bits (base + j) := by
  induction n with
  | zero => omega
  | succ n ih =>
    by_cases inside : base ≤ n ∧ n < base + 8
    · rw [fieldAfter_inside bits inside, shiftIn_getLsbD _ _ _ (by omega)]
      split_ifs with last
      · rw [show base + j = n by omega]
      · rw [← ih (by omega)]
        congr 1
        omega
    · rw [fieldAfter_outside bits inside, ← ih (by omega)]
      congr 1
      omega

/-! ### The frame in progress (R22, R65) -/

/-- The state `s` in which a frame was started and `n` pulses, of these bits, were taken, the latest RISE at `last`. -/
def frameAfter (s : State) (bits : Nat → Bool) (last : Tick) (n : Nat) : State :=
  { s with
    lastRise := last, riseSeen := true, poison := false, p := (n : Int) - 2, outputs := {}
    hh := fieldAfter bits 2 n, hl := fieldAfter bits 10 n, th := fieldAfter bits 18 n, tl := fieldAfter bits 26 n
    cs := fieldAfter bits 34 n }

section

variable (s : State) (bits : Nat → Bool) (last : Tick) (n : Nat)

@[simp] theorem frameAfter_p : (frameAfter s bits last n).p = (n : Int) - 2 := rfl
@[simp] theorem frameAfter_attached : (frameAfter s bits last n).attached = s.attached := rfl
@[simp] theorem frameAfter_riseSeen : (frameAfter s bits last n).riseSeen = true := rfl
@[simp] theorem frameAfter_lastRise : (frameAfter s bits last n).lastRise = last := rfl
@[simp] theorem frameAfter_poison : (frameAfter s bits last n).poison = false := rfl

end

/-- A start condition begins the frame, whatever the train's bits will be (R120, R121). -/
theorem exec_rise_start {s : State} {t : Tick} (bits : Nat → Bool) (ha : s.attached = true)
    (start : s.riseSeen = false ∨ elapsed s.lastRise t > 250000) :
    exec (.rise t) s = .next (frameAfter s bits t 0) := by
  rw [← interval_eq_elapsed, ← isStart_iff] at start
  obtain ⟨hd, -⟩ | ⟨-, -, e⟩ | ⟨-, other, -⟩ := execRise_cases t s
  · simp [hd] at ha
  · exact e
  · simp [other] at start

/-- A RISE within T_START of the latest one is noted, and the frame goes on (R120, R129). -/
theorem exec_rise_within {s : State} {bits : Nat → Bool} {last t : Tick} {n : Nat} (ha : s.attached = true)
    (within : elapsed last t ≤ 250000) :
    exec (.rise t) (frameAfter s bits last n) = .next (frameAfter s bits t n) := by
  obtain ⟨hd, -⟩ | ⟨-, start, -⟩ | ⟨-, -, e⟩ := execRise_cases t (frameAfter s bits last n)
  · simp [ha] at hd
  · rw [isStart_iff, interval_eq_elapsed] at start
    exact absurd within (not_le.2 (start.resolve_left (by simp)))
  · exact e

/-- A bit goes into the field of the position: bits 0 and 1 into none, then eight a field, from HH to CS (R65, R123). -/
theorem routeBit_frameAfter (s : State) (bits : Nat → Bool) (last : Tick) {n : Nat} (hn : n < 42) :
    (frameAfter s bits last n).routeBit (bits n) = { frameAfter s bits last n with
      hh := fieldAfter bits 2 (n + 1), hl := fieldAfter bits 10 (n + 1), th := fieldAfter bits 18 (n + 1),
      tl := fieldAfter bits 26 (n + 1), cs := fieldAfter bits 34 (n + 1) } := by
  have position := frameAfter_p s bits last n
  obtain ⟨h, e⟩ | ⟨l, h, e⟩ | ⟨l, h, e⟩ | ⟨l, h, e⟩ | ⟨l, h, e⟩ | ⟨l, h, e⟩ | ⟨l, e⟩ :=
    routeBit_cases (bits n) (frameAfter s bits last n)
  pick_goal 7
  · omega
  all_goals
    rw [e]
    simp (disch := omega) only [fieldAfter_inside, fieldAfter_outside]
    rfl

/-- A pulse that is not Corrupt takes the frame one bit on (R122, R128). -/
theorem takePulse_frameAfter (s : State) (bits : Nat → Bool) (last : Tick) {n : Nat} {c : Pulse} (hn : n < 42)
    (bit : bitval c = bits n) (clean : isCorrupt c = false) :
    takePulse c (frameAfter s bits last n) = frameAfter s bits last (n + 1) := by
  rw [takePulse, bit, clean, routeBit_frameAfter s bits last hn]
  simp [frameAfter]
  omega

/-! ### The pulses of a train (R90) -/

/-- The width a FALL measures is the pulse's own, modulo 2^32 ticks (R90, R100). -/
theorem interval_add (t w : Tick) : interval (t + w) t = w.toNat := by
  simp [interval]

/-- The bits that pulses of these widths spell. -/
def bitsOf (w : Nat → BitVec 32) (k : Nat) : Bool := decide (50 ≤ (w k).toNat)

/-- The FALL of a pulse below T_CORRUPT takes it into the frame (R101, R122). -/
theorem takePulse_fall (s : State) {w : Nat → BitVec 32} (t : Tick) {n : Nat} (hn : n < 42)
    (short : (w n).toNat < 200) :
    takePulse (classify (interval (t + w n) (frameAfter s (bitsOf w) t n).lastRise)) (frameAfter s (bitsOf w) t n)
      = frameAfter s (bitsOf w) t (n + 1) := by
  rw [frameAfter_lastRise, interval_add]
  exact takePulse_frameAfter s _ t hn (bitval_classify _)
    ((isCorrupt_classify _).trans (decide_eq_false (by omega)))

/-- A FALL before the last one takes the frame one bit on (R122). -/
theorem exec_fall_frameAfter {s : State} {w : Nat → BitVec 32} {t : Tick} {n : Nat} (ha : s.attached = true)
    (hn : n < 41) (short : (w n).toNat < 200) :
    exec (.fall (t + w n)) (frameAfter s (bitsOf w) t n) = .next (frameAfter s (bitsOf w) t (n + 1)) := by
  rw [exec_fall_bit _ (by exact ha) (by rw [frameAfter_p]; omega), takePulse_fall s t (by omega) short]
  rfl

/-- The last FALL completes the frame (R127). -/
theorem exec_fall_frameAfter_last {s : State} {w : Nat → BitVec 32} {t : Tick} (ha : s.attached = true)
    (short : (w 41).toNat < 200) :
    exec (.fall (t + w 41)) (frameAfter s (bitsOf w) t 41) = .next (completeFrame (frameAfter s (bitsOf w) t 42)) := by
  rw [exec_fall_last _ (by exact ha) rfl, takePulse_fall s t (by omega) short]

/-- The first `n` pulses of a train. -/
def pulseTrain (r w : Nat → BitVec 32) (n : Nat) : List Instr := (List.range n).flatMap fun k => pulseOps (r k) (w k)

/-- One pulse more. -/
theorem pulseTrain_succ (r w : Nat → BitVec 32) (n : Nat) :
    pulseTrain r w (n + 1) = pulseTrain r w n ++ pulseOps (r n) (w n) := by
  simp [pulseTrain, List.range_succ]

section

variable {s : State} {r w : Nat → BitVec 32} (ha : s.attached = true)
  (start : s.riseSeen = false ∨ elapsed s.lastRise (r 0) > 250000)
  (near : ∀ k, k < 41 → elapsed (r k) (r (k + 1)) ≤ 250000) (short : ∀ k, k < 42 → (w k).toNat < 200)
include ha start near short

/-- Up to the last pulse the frame is in progress, one bit further with each pulse (R121, R129). -/
theorem execAll_pulseTrain {n : Nat} (hn : n < 41) :
    execAll (pulseTrain r w (n + 1)) s = .next (frameAfter s (bitsOf w) (r n) (n + 1)) := by
  induction n with
  | zero =>
    exact (execAll_cons (exec_rise_start (bitsOf w) ha start)).trans
      (execAll_cons (exec_fall_frameAfter ha hn (short 0 (by omega))))
  | succ n ih =>
    rw [pulseTrain_succ, execAll_append (ih (by omega)), pulseOps,
      execAll_cons (exec_rise_within ha (near n (by omega))),
      execAll_cons (exec_fall_frameAfter ha hn (short (n + 1) (by omega))), execAll_nil]

/-- The last pulse completes the frame (R127). -/
theorem execAll_pulseTrain_last :
    execAll (pulseTrain r w 42) s = .next (completeFrame (frameAfter s (bitsOf w) (r 41) 42)) := by
  rw [pulseTrain_succ, execAll_append (execAll_pulseTrain ha start near short (by omega)), pulseOps,
    execAll_cons (exec_rise_within ha (near 40 (by omega))),
    execAll_cons (exec_fall_frameAfter_last ha (short 41 (by omega))), execAll_nil]

end

/-- Once the train is through, a field holds its eight bits, the first the most significant (R64). -/
theorem fieldAfter_complete (bits : Nat → Bool) {base j : Nat} (hb : base ≤ 34) (hj : j < 8) :
    (fieldAfter bits base 42).getLsbD (7 - j) = bits (base + j) := by
  rw [← fieldAfter_getLsbD bits base hj (n := 42) (by omega)]
  congr 1
  omega

/-- Settles O26: the train ends in the completion of the frame its bits make, and validation has two outcomes. -/
theorem pulseTrainDecodesToItsFrame : Obligations.PulseTrainDecodesToItsFrame := by
  intro s r w ha start near short
  obtain ⟨p, hh, hl, th, tl, cs, poison, lastRise, -⟩ := completeFrame_keeps (frameAfter s (bitsOf w) (r 41) 42)
  obtain ⟨streak, outputs⟩ := completeFrame_writes (frameAfter s (bitsOf w) (r 41) 42)
  have bits {base j : Nat} (hb : base ≤ 34) (hj : j < 8) := fieldAfter_complete (bitsOf w) hb hj
  refine ⟨_, execAll_pulseTrain_last ha start near short, p, poison, streak, lastRise, by rw [outputs],
    fun j hj => hh ▸ bits (by omega) hj, fun j hj => hl ▸ bits (by omega) hj, fun j hj => th ▸ bits (by omega) hj,
    fun j hj => tl ▸ bits (by omega) hj, fun j hj => cs ▸ bits (by omega) hj, ?_⟩
  obtain ⟨-, sum, hum, temp, tov, valid, kept⟩ | ⟨bad, counted, hum, temp, tov, valid⟩ :=
    completingFall_cases _ (congrArg completeFrame (takePulse_fall s (r 41) (by omega) (short 41 (by omega))))
  · exact ⟨fun _ => ⟨valid, hum ▸ humidityOf_toNat .., temp ▸ temperatureOf_toInt .., tov, kept⟩,
      fun differ => absurd sum differ⟩
  · refine ⟨fun sum => ?_, fun _ => ⟨valid, hum, temp, tov, counted ▸ satInc_toNat _⟩⟩
    exact absurd sum (bad.resolve_left (by simp))

end Sys2Proof
end

section
/-! PROOFS. The decoder and the encoder undo each other (R81, R82, R85, R86), so a word is one of a row of the opcode
table exactly where the decoder answers the row's operation. -/

namespace Sys2Proof

open Sys2Proof.Machine

/-! ### Words to operations and back (R86) -/

/-- Settles O13: each row's own law of the decoder on the words of that row. -/
theorem decodeEncodeRoundTrip : Obligations.DecodeEncodeRoundTrip :=
  fun _ => decode_encode

/-- A command word is put together from its TICK and the KIND it has exactly (R81). -/
theorem cmdWordOf_tickOf_iff {w : BitVec 36} {kind : BitVec 4} : cmdWordOf kind (tickOf w) = w ↔ kindOf w = kind :=
  ⟨fun e => by rw [← e, kindOf_cmdWordOf], fun e => e ▸ cmdWordOf_kindOf_tickOf w⟩

/-- What the tests of the decoder leave for each reserved group is the range of its row (R82). -/
theorem decodeCmd_wellFormed (w : BitVec 36) : (decodeCmd w).wellFormed = true := by
  simp only [decodeCmd]
  split_ifs with not0 not1 not2 not3 upTo7 not8 not9 upToB
  · rfl
  · rfl
  · rfl
  · rfl
  · simp only [Instr.wellFormed, Bool.and_eq_true, decide_eq_true_eq]
    bv_omega
  · rfl
  · rfl
  · simp only [Instr.wellFormed, Bool.and_eq_true, decide_eq_true_eq]
    bv_omega
  · simp only [Instr.wellFormed, decide_eq_true_eq]
    bv_omega

/-- Each row of the decoder keeps the TICK and either fixes the KIND or keeps it (R81, R82). -/
theorem encode_decodeCmd (w : BitVec 36) : encode (decodeCmd w) = .cmd w := by
  have back {kind : BitVec 4} (h : kindOf w = kind) : PortWord.cmd (cmdWordOf kind (tickOf w)) = .cmd w :=
    congrArg _ (cmdWordOf_tickOf_iff.2 h)
  simp only [decodeCmd]
  split_ifs with is0 is1 is2 is3 upTo7 is8 is9 upToB
  · exact back is0
  · exact back is1
  · exact back is2
  · exact back is3
  · exact back rfl
  · exact back is8
  · exact back is9
  · exact back rfl
  · exact back rfl

/-- The sixteen read addresses (R85). -/
theorem decodeRead_faithful (addr : BitVec 4) :
    (decodeRead addr).wellFormed = true ∧ encode (decodeRead addr) = .rd addr := by
  revert addr; decide

/-- Settles O14: the laws of the two ports. -/
theorem decoderIsTotalAndFaithful : Obligations.DecoderIsTotalAndFaithful
  | .cmd w => ⟨decodeCmd_wellFormed w, encode_decodeCmd w⟩
  | .rd addr => decodeRead_faithful addr

/-! ### The rows of the opcode table (R82) -/

/-- The decoder answers an operation on that operation's own word and on no other. -/
theorem decodeCmd_eq_iff {w : BitVec 36} {i : Instr} : decodeCmd w = i ↔ i.wellFormed = true ∧ encode i = .cmd w :=
  ⟨fun e => e ▸ ⟨decodeCmd_wellFormed w, encode_decodeCmd w⟩,
    fun ⟨hwf, e⟩ => show decode (.cmd w) = i from e ▸ decode_encode hwf⟩

/-- A mask and match of the table is one of KIND (R81, R82). -/
theorem and_mask_iff (w : BitVec 36) (mask value : BitVec 4) :
    w &&& cmdWordOf mask 0 = cmdWordOf value 0 ↔ kindOf w &&& mask = value := by
  rw [← cmdWordOf_and_mask (kindOf w) mask value (tickOf w), cmdWordOf_kindOf_tickOf]

/-- A row of one KIND: its operation keeps the TICK alone. -/
theorem row_of_kind {w : BitVec 36} {kind : BitVec 4} {i : Instr} (hwf : i.wellFormed = true)
    (he : encode i = .cmd (cmdWordOf kind (tickOf w))) :
    w &&& cmdWordOf 0xF 0 = cmdWordOf kind 0 ↔ decodeCmd w = i := by
  have full : kindOf w &&& 0xF = kindOf w := BitVec.and_allOnes
  rw [and_mask_iff, full, decodeCmd_eq_iff, he, PortWord.cmd.injEq, cmdWordOf_tickOf_iff, and_iff_right hwf]

/-- A row of several KINDs: its operation keeps both fields, and its range is what the mask leaves of KIND. -/
theorem row_of_group {w : BitVec 36} {mask value : BitVec 4} {i : Instr}
    (he : encode i = .cmd (cmdWordOf (kindOf w) (tickOf w))) (range : kindOf w &&& mask = value ↔ i.wellFormed = true) :
    w &&& cmdWordOf mask 0 = cmdWordOf value 0 ↔ decodeCmd w = i := by
  rw [cmdWordOf_kindOf_tickOf] at he
  rw [and_mask_iff, range, decodeCmd_eq_iff, and_iff_left he]

/-- The masks of the three reserved groups leave of KIND the ranges of R82. -/
theorem group_range_iff (k : BitVec 4) (tick : BitVec 32) :
    (k &&& 0xC = 0x4 ↔ (Instr.rsvCmd4To7 k tick).wellFormed = true)
    ∧ (k &&& 0xE = 0xA ↔ (Instr.rsvCmdAToB k tick).wellFormed = true)
    ∧ (k &&& 0xC = 0xC ↔ (Instr.rsvCmdCToF k tick).wellFormed = true) := by
  simp only [Instr.wellFormed]
  revert k; decide

/-- Settles O15: six rows of one KIND and three groups, each by the law of its sort. -/
theorem commandDecodeFollowsTable : Obligations.CommandDecodeFollowsTable := by
  intro w
  obtain ⟨range4To7, rangeAToB, rangeCToF⟩ := group_range_iff (kindOf w) (tickOf w)
  exact ⟨row_of_kind (kind := 0x0) rfl rfl, row_of_kind (kind := 0x1) rfl rfl, row_of_kind (kind := 0x2) rfl rfl,
    row_of_kind (kind := 0x3) rfl rfl, row_of_group rfl range4To7, row_of_kind (kind := 0x8) rfl rfl,
    row_of_kind (kind := 0x9) rfl rfl, row_of_group rfl rangeAToB, row_of_group rfl rangeCToF⟩

/-- Settles O16: closed words, decoded. -/
theorem sampleWordsDecode : Obligations.SampleWordsDecode := by
  unfold Obligations.SampleWordsDecode
  decide

end Sys2Proof
end

section
/-! PROOFS. What a step does with a cycle that performs no operation, with a word of the opcode table and with the
lines of a trace (R80, R90, R270), and that it always answers a next state (R240, R292). -/

namespace Sys2Proof

open Sys2Proof.Machine

/-- Settles O8: a step answers what the ports settle or what an operation answers, and every operation completes. -/
theorem everyStepCompletes : Obligations.EveryStepCompletes := by
  refine ⟨exec_completes, fun s => ?_⟩
  obtain ⟨t, -, settled⟩ | ⟨i, t, -, performed⟩ := step_of_present s
  · exact ⟨t, settled⟩
  · exact performed ▸ exec_completes i t

/-- Settles O3: the step is the reset cycle, which takes both ports from the cycle and what follows it. -/
theorem resetCycleLeavesTheInputsToCome : Obligations.ResetCycleLeavesTheInputsToCome := by
  intro s c rest hin hrst
  have reset : step s = .next (resetCycle c rest) := by simp [step, present, hin, hrst]
  exact ⟨_, reset, rfl, rfl⟩

/-- Settles O6: both kinds of idle step are settled by the ports. -/
theorem idleCycleChangesNothing : Obligations.IdleCycleChangesNothing := by
  refine ⟨fun s c rest hin hrst hrd hcmd => ?_, fun s hin => ?_⟩
  · simp [step, present, hin, hrst, hrd, hcmd, State.quiet, State.emit, Outputs.quiet]
  · simp [step, present, hin, State.quiet, State.emit, Outputs.quiet]

/-- A number that the opcode table decodes is a port word of that operation. -/
theorem decodeTableWord_eq_some {nbits w : Nat} {i : Instr} (h : decodeTableWord nbits w = some i) :
    ∃ pw, portWordOfBits nbits w = .ok pw ∧ decode pw = i := by
  unfold decodeTableWord decodeBits at h
  cases e : portWordOfBits nbits w with
  | ok pw => exact ⟨pw, rfl, by simpa [e] using h⟩
  | error r => simp [e] at h

/-- Settles O5: the word is presented in a cycle of its own at the present clock, and consumed with it. -/
theorem stepRunsPresentedTableWord : Obligations.StepRunsPresentedTableWord := by
  intro s nbits w i h
  obtain ⟨pw, word, rfl⟩ := decodeTableWord_eq_some h
  have presented : s.withFetchWord nbits w = { s with inputs := cycleOf s.wallNow pw :: s.inputs } := by
    simp [State.withFetchWord, presentTableWord, word]
  rw [presented, step_of_cycleOf rfl]

/-- Settles O11: the FALL's tick is the sum modulo 2^32; with it both sides are the same two words. -/
theorem pseudoOperationsExpand : Obligations.PseudoOperationsExpand := by
  intro t w wall lines
  have sum : BitVec.ofNat 32 ((t.toNat + w.toNat) % 2 ^ 32) = t + w := by
    apply BitVec.eq_of_toNat_eq
    simp
  rw [sum]
  exact ⟨rfl, rfl, rfl, rfl, rfl⟩

end Sys2Proof
end

section
/-! PROOFS. The classifier over every pulse width (R101 to R103) and the interval over every pair of ticks (R100,
R105). -/

namespace Sys2Proof

open Sys2Proof.Machine

/-! ### Which widths have which outcome (R101) -/

/-- Zero is the one outcome that contributes a 0 (R102). -/
theorem classify_eq_zero_iff (d : Nat) : classify d = .zero ↔ d < 50 := by
  have outcome (p : Pulse) : p = .zero ↔ bitval p = false := by cases p <;> decide
  rw [outcome, bitval_classify, decide_eq_false_iff_not, not_le]

/-- Corrupt is the one outcome that poisons (R103). -/
theorem classify_eq_corrupt_iff (d : Nat) : classify d = .corrupt ↔ 200 ≤ d := by
  have outcome (p : Pulse) : p = .corrupt ↔ isCorrupt p = true := by cases p <;> decide
  rw [outcome, isCorrupt_classify, decide_eq_true_iff]

/-- One is the outcome that contributes a 1 without poisoning (R102, R103). -/
theorem classify_eq_one_iff (d : Nat) : classify d = .one ↔ 50 ≤ d ∧ d < 200 := by
  have outcome (p : Pulse) : p = .one ↔ bitval p = true ∧ isCorrupt p = false := by cases p <;> decide
  rw [outcome, bitval_classify, isCorrupt_classify, decide_eq_true_iff, decide_eq_false_iff_not, not_le]

/-- Settles O17: each outcome, its bit and the poison signal have their range of widths. -/
theorem classifierThresholds : Obligations.ClassifierThresholds := by
  intro d
  refine ⟨classify_eq_zero_iff d, classify_eq_one_iff d, classify_eq_corrupt_iff d, ?bit, ?poison⟩
  case bit => rw [bitval_classify, decide_eq_true_iff]
  case poison => rw [isCorrupt_classify, decide_eq_true_iff]

/-! ### The interval on either side of LAST_RISE (R100, R105) -/

/-- Without a wrap of the tick counter the interval is the difference (R100). -/
theorem interval_of_le {t l : Tick} (h : l.toNat ≤ t.toNat) : interval t l = t.toNat - l.toNat :=
  BitVec.toNat_sub_of_le (BitVec.le_def.mpr h)

/-- Across a wrap, or for a tick out of order, the interval is 2^32 less the difference (R105). -/
theorem interval_of_lt {t l : Tick} (h : t.toNat < l.toNat) : interval t l = 2 ^ 32 - (l.toNat - t.toNat) :=
  BitVec.toNat_sub_of_lt (BitVec.lt_def.mpr h)

/-- Settles O18: a tick before LAST_RISE gives 2^32 less the difference, which is compared with T_CORRUPT. -/
theorem intervalIsModuloTicks : Obligations.IntervalIsModuloTicks := by
  intro t l
  refine ⟨interval_eq_elapsed t l, interval_of_le, fun before => ⟨interval_of_lt before, ?_⟩⟩
  have := l.isLt
  rw [classify_eq_corrupt_iff, interval_of_lt before]
  omega

end Sys2Proof
end

section
/-! PROOFS. The Frame Assembler (R120 to R130): what a RISE answers by its start condition, what an accepted FALL makes
of the frame, what its completion validates, and how P counts the FALLs. -/

namespace Sys2Proof

open Sys2Proof.Machine

/-! ### RISE (R120, R121) -/

/-- The start condition, by the time elapsed since the latest rise. -/
theorem isStart_iff_elapsed (t : Tick) (s : State) :
    isStart t s = true ↔ s.riseSeen = false ∨ elapsed s.lastRise t > 250000 := by
  rw [isStart_iff, interval_eq_elapsed]

/-- A RISE at most T_START after the rise before it is no start condition (R121). -/
theorem isStart_eq_false {t : Tick} {s : State} (seen : s.riseSeen = true) (within : elapsed s.lastRise t ≤ 250000) :
    isStart t s = false := by
  rw [Bool.eq_false_iff, Ne, isStart_iff_elapsed, seen]
  simp [within]

/-- A RISE while detached has no effect (R192). -/
theorem exec_rise_detached {t : BitVec 32} {s : State} (hd : s.attached = false) :
    exec (.rise t) s = .next s.quiet := by
  obtain ⟨-, e⟩ | ⟨ha, -⟩ | ⟨ha, -⟩ := execRise_cases t s
  · exact e
  · simp [hd] at ha
  · simp [hd] at ha

/-- An accepted RISE that is no start condition is noted, and no more (R120). -/
theorem exec_rise_noted {t : BitVec 32} {s : State} (ha : s.attached = true) (seen : s.riseSeen = true)
    (within : elapsed s.lastRise t ≤ 250000) : exec (.rise t) s = .next (s.noteRise t).quiet := by
  obtain ⟨hd, -⟩ | ⟨-, start, -⟩ | ⟨-, -, e⟩ := execRise_cases t s
  · simp [ha] at hd
  · simp [isStart_eq_false seen within] at start
  · exact e

/-- Settles O19: a start condition begins a frame with no bit taken, whatever its bits; another RISE is noted. -/
theorem riseStartsFrameAfterLongInterval : Obligations.RiseStartsFrameAfterLongInterval :=
  fun t _ => ⟨decode_encode (i := .rise t) rfl, exec_rise_start fun _ => false, exec_rise_noted, exec_rise_detached⟩

/-! ### An accepted FALL (R122 to R125, R128) -/

/-- Each field takes the bit at its own eight positions, and at no other (R123). -/
theorem routeBit_fields (b : Bool) (s : State) :
    (s.routeBit b).hh = (if 0 ≤ s.p ∧ s.p < 8 then shiftIn s.hh b else s.hh)
    ∧ (s.routeBit b).hl = (if 8 ≤ s.p ∧ s.p < 16 then shiftIn s.hl b else s.hl)
    ∧ (s.routeBit b).th = (if 16 ≤ s.p ∧ s.p < 24 then shiftIn s.th b else s.th)
    ∧ (s.routeBit b).tl = (if 24 ≤ s.p ∧ s.p < 32 then shiftIn s.tl b else s.tl)
    ∧ (s.routeBit b).cs = (if 32 ≤ s.p ∧ s.p < 40 then shiftIn s.cs b else s.cs) := by
  obtain ⟨h, e⟩ | ⟨l, h, e⟩ | ⟨l, h, e⟩ | ⟨l, h, e⟩ | ⟨l, h, e⟩ | ⟨l, h, e⟩ | ⟨l, e⟩ := routeBit_cases b s
  all_goals
    rw [e]
    simp (disch := omega) only [if_pos, if_neg, and_self]

/-- The pulse of a width shifts in a 1 from T_ONE on (R101, R124). -/
theorem shiftIn_classify_toNat (f : Byte) (d : Nat) :
    (shiftIn f (bitval (classify d))).toNat = (2 * f.toNat + if 50 ≤ d then 1 else 0) % 256 := by
  rw [shiftIn_toNat, bitval_classify, Bool.toNat, Bool.cond_decide]

/-- A pulse poisons from T_CORRUPT on (R103, R125). -/
@[simp] theorem takePulse_poison (d : Nat) (s : State) :
    (takePulse (classify d) s).poison = (s.poison || decide (200 ≤ d)) := by
  rw [← isCorrupt_classify]
  rfl

/-- An accepted FALL leaves the frame as its pulse makes it; a completion does not write the frame (R122, R127). -/
theorem exec_fall_frame (t : BitVec 32) {s : State} (ha : s.attached = true) (hp : s.p < 40) :
    ∃ u, exec (.fall t) s = .next u ∧ u.p = s.p + 1
      ∧ u.poison = (s.poison || decide (200 ≤ elapsed s.lastRise t))
      ∧ u.hh = (s.routeBit (bitval (classify (elapsed s.lastRise t)))).hh
      ∧ u.hl = (s.routeBit (bitval (classify (elapsed s.lastRise t)))).hl
      ∧ u.th = (s.routeBit (bitval (classify (elapsed s.lastRise t)))).th
      ∧ u.tl = (s.routeBit (bitval (classify (elapsed s.lastRise t)))).tl
      ∧ u.cs = (s.routeBit (bitval (classify (elapsed s.lastRise t)))).cs := by
  rw [← interval_eq_elapsed]
  rcases lt_or_ge s.p 39 with before | last
  · exact ⟨_, exec_fall_bit t ha before, by simp [takePulse_eq, isCorrupt_classify]⟩
  · exact ⟨_, exec_fall_last t ha (by omega), by simp [takePulse_eq, isCorrupt_classify]⟩

/-- Settles O20: the frame is as the pulse makes it, its routed bit read as a number. -/
theorem fallRoutesBitToFieldOfPosition : Obligations.FallRoutesBitToFieldOfPosition := by
  intro t s ha _ hp
  obtain ⟨u, e, p, poison, hh, hl, th, tl, cs⟩ := exec_fall_frame t ha hp
  obtain ⟨rhh, rhl, rth, rtl, rcs⟩ := routeBit_fields (bitval (classify (elapsed s.lastRise t))) s
  refine ⟨u, e, p, poison, ?_⟩
  simp only [hh, hl, th, tl, cs, rhh, rhl, rth, rtl, rcs, apply_ite BitVec.toNat, shiftIn_classify_toNat, and_self]

/-- Settles O21: below P = 39 a FALL is its pulse, which writes the frame, POISON and P. -/
theorem fallBeforeCompletionKeepsTheRest : Obligations.FallBeforeCompletionKeepsTheRest := by
  intro t s ha _ hp
  refine ⟨_, exec_fall_bit t ha hp, ?_⟩
  rw [takePulse_eq]
  rfl

/-- A FALL at P of 40 or more has no effect, attached or not (R126, R192). -/
theorem exec_fall_idle (t : BitVec 32) {s : State} (idle : 40 ≤ s.p) : exec (.fall t) s = .next s.quiet := by
  obtain ⟨-, e⟩ | ⟨-, -, e⟩ | ⟨-, busy, -⟩ | ⟨-, last, -⟩ := execFall_cases t s
  · exact e
  · exact e
  · omega
  · omega

/-- Settles O22: P is written by a start condition, which sets -2, and below 40 by a FALL, which adds one. -/
theorem idleFallHasNoEffect : Obligations.IdleFallHasNoEffect := by
  refine ⟨fun t s => exec_fall_idle t, fun i s u hp h => ?_⟩
  obtain kept | ⟨started, -⟩ | ⟨counted, busy, -⟩ := positionWrittenOnlyByStartAndFall i s u h <;> omega

/-! ### The completing FALL (R127, R150 to R155) -/

/-- The checksum of R150, read as numbers. -/
theorem sum_eq_iff_toNat (hh hl th tl cs : Byte) :
    hh + hl + th + tl = cs ↔ (hh.toNat + hl.toNat + th.toNat + tl.toNat) % 256 = cs.toNat := by
  simp [← BitVec.toNat_inj, BitVec.toNat_add]

/-- A completing FALL leaves the frame with its last bit in CS, clears STREAK and asserts DISARM (R123, R127). -/
theorem completingFall_frame {d : Nat} {s u : State} (hp : s.p = 39)
    (e : completeFrame (takePulse (classify d) s) = u) :
    u.p = 40 ∧ u.hh = s.hh ∧ u.hl = s.hl ∧ u.th = s.th ∧ u.tl = s.tl ∧ u.cs = shiftIn s.cs (bitval (classify d))
    ∧ u.poison = (s.poison || decide (200 ≤ d)) ∧ u.streak = 0#2 ∧ u.outputs = { disarm := true } := by
  subst e
  simp [takePulse_last _ s hp, isCorrupt_classify]

/-- A completing FALL writes P, CS, POISON, STREAK, the Reading Store, CNT_BADCS and DISARM, and no more (R127). -/
theorem completingFall_eq (c : Pulse) {s u : State} (hp : s.p = 39) (e : completeFrame (takePulse c s) = u) :
    u = { s with p := u.p, cs := u.cs, poison := u.poison, streak := u.streak, hum := u.hum, temp := u.temp,
                 tov := u.tov, valid := u.valid, cntBadcs := u.cntBadcs, outputs := u.outputs } := by
  subst e
  rw [takePulse_last c s hp]
  obtain ⟨-, e⟩ | ⟨-, e⟩ :=
    completeFrame_cases { s with cs := shiftIn s.cs (bitval c), poison := s.poison || isCorrupt c, p := 40 } <;>
    rw [e]

/-- Settles O24: the completion's writes, and its two outcomes with the checksum read as numbers. -/
theorem completingFallValidatesTheFrame : Obligations.CompletingFallValidatesTheFrame := by
  intro t s ha hp
  rw [← interval_eq_elapsed]
  obtain ⟨u, done⟩ : ∃ u, completeFrame (takePulse (classify (interval t s.lastRise)) s) = u := ⟨_, rfl⟩
  obtain ⟨p, hh, hl, th, tl, cs, poison, streak, outputs⟩ := completingFall_frame hp done
  have outcome := completingFall_cases _ done
  simp only [hh, hl, th, tl, ne_eq, sum_eq_iff_toNat] at outcome
  refine ⟨u, done ▸ exec_fall_last t ha hp, p, streak, outputs, poison, cs ▸ shiftIn_classify_toNat .., ?pass, ?fail,
    completingFall_eq _ hp done⟩
  case pass =>
    intro clean sum
    obtain ⟨-, -, hum, temp, tov, valid, kept⟩ | ⟨bad, -⟩ := outcome
    · exact ⟨hum ▸ humidityOf_toNat .., temp ▸ temperatureOf_toInt .., tov, valid, kept⟩
    · exact absurd sum (bad.resolve_left (Bool.eq_false_iff.1 clean))
  case fail =>
    intro bad
    obtain ⟨clean, sum, -⟩ | ⟨-, counted, hum, temp, tov, valid⟩ := outcome
    · exact absurd sum (bad.resolve_left (Bool.eq_false_iff.1 clean))
    · exact ⟨hum, temp, tov, valid, counted ▸ satInc_toNat _⟩

/-! ### POISON (R125) -/

/-- Of all operations a start condition alone clears POISON (R120, R125). -/
theorem exec_keeps_poison {i : Instr} {s u : State} (h : exec i s = .next u) (poisoned : s.poison = true) :
    u.poison = true
    ∨ ∃ t, i = .rise t ∧ s.attached = true ∧ (s.riseSeen = false ∨ elapsed s.lastRise t > 250000) := by
  cases exec_cases h with
  | riseStart k ha start => exact Or.inr ⟨k, rfl, ha, (isStart_iff_elapsed k s).1 start⟩
  | timeoutMissing => obtain ⟨-, e⟩ | ⟨-, e⟩ := missingMessage_cases s <;> exact Or.inl (by rw [e]; exact poisoned)
  | _ => exact Or.inl (by simp [poisoned])

/-- Settles O23: a Corrupt pulse is in POISON at once, and a completed frame that holds it does not pass. -/
theorem corruptPulsePoisonsUntilNextStart : Obligations.CorruptPulsePoisonsUntilNextStart := by
  refine ⟨fun t s ha _ hp corrupt => ?_, fun i s u => exec_keeps_poison, fun t s ha hp bad => ?_⟩
  · obtain ⟨u, e, -, poison, -⟩ := exec_fall_frame t ha hp
    exact ⟨u, e, by simp [poison, corrupt]⟩
  · obtain ⟨u, done⟩ : ∃ u, completeFrame (takePulse (classify (interval t s.lastRise)) s) = u := ⟨_, rfl⟩
    obtain ⟨-, -, -, -, -, -, poison, -⟩ := completingFall_frame hp done
    have poisoned : u.poison = true := by simpa [poison, interval_eq_elapsed] using bad
    obtain ⟨clean, -⟩ | ⟨-, counted, hum, temp, tov, valid⟩ := completingFall_cases _ done
    · exact absurd poisoned (Bool.eq_false_iff.1 clean)
    · exact ⟨u, done ▸ exec_fall_last t ha hp, poisoned, valid, hum, temp, tov, counted ▸ satInc_toNat _⟩

/-! ### P counts the FALLs (R129, R130) -/

/-- A RISE alone has a rise's tick. -/
theorem riseTick_eq_some_iff {i : Instr} {t : Tick} : riseTick i = some t ↔ i = .rise t := by
  cases i <;> simp [riseTick]

/-- After an operation of a row without start conditions, the rest is one, from the state then. -/
theorem startFree_tail {i : Instr} {is : List Instr} {s u : State} (h : exec i s = .next u)
    (free : startFree s.attached s.riseSeen s.lastRise (i :: is) = true) :
    startFree u.attached u.riseSeen u.lastRise is = true := by
  cases tick : riseTick i with
  | none =>
    obtain ⟨last, seen⟩ | ⟨-, t, rfl⟩ := riseTimingWrittenOnlyByAcceptedRise.2 i s u h
    · rw [exec_attached h, last, seen, ← startFree_other _ _ _ _ _ tick]
      exact free
    · cases tick
  | some t =>
    obtain rfl := riseTick_eq_some_iff.1 tick
    cases ha : s.attached with
    | false =>
      rw [exec_rise_detached ha] at h
      cases h
      simpa [ha, attachedAfter] using free
    | true =>
      rw [ha, startFree_rise] at free
      obtain ⟨seen, within, rest⟩ := free
      rw [exec_rise_noted ha seen within] at h
      cases h
      simpa [ha] using rest

/-- An operation of such a row adds one to P exactly where it is a FALL, attached, below 40. -/
theorem exec_counts_fall {i : Instr} {is : List Instr} {s u : State} (h : exec i s = .next u) (hp : s.p ≤ 40)
    (free : startFree s.attached s.riseSeen s.lastRise (i :: is) = true) :
    u.p = min 40 (s.p + (if s.attached && isFall i then 1 else 0 : Nat)) := by
  cases exec_cases h with
  | riseStart k ha start =>
    rw [ha, startFree_rise] at free
    obtain ⟨seen, within, -⟩ := free
    simp [isStart_eq_false seen within] at start
  | fallDetached k hd => simp [hd]; omega
  | fallIdle k ha idle => simp [ha, isFall]; omega
  | fallBit k ha busy => simp [ha, isFall]; omega
  | fallLast k ha last => simp [ha, isFall]; omega
  | reserved i hi => cases i <;> simp [isReservedCmd, isFall] at hi ⊢ <;> omega
  | plainRead i w hi => cases i <;> simp [isPlainRead, isFall] at hi ⊢ <;> omega
  | _ => simp [isFall]; omega

/-- Settles O45, by induction on the row: each operation counts, and the rest counts on from where it leaves P. -/
theorem positionCountsTheFalls : Obligations.PositionCountsTheFalls := by
  intro ops
  induction ops with
  | nil =>
    intro s hp _
    exact ⟨s, rfl, by simp; omega⟩
  | cons i is ih =>
    intro s hp free
    obtain ⟨v, e⟩ := exec_completes i s
    have counted := exec_counts_fall e hp free
    obtain ⟨u, run, total⟩ := ih v (by omega) (startFree_tail e free)
    refine ⟨u, (execAll_cons e).trans run, ?_⟩
    rw [total, counted, exec_attached e, fallsWhileAttached_cons, Nat.cast_add]
    omega

end Sys2Proof
end

section
/-! PROOFS. The conversion of a frame's bytes to the published values (R151, R152). -/

namespace Sys2Proof

open Sys2Proof.Machine

/-- Settles O25: the conversions read as numbers, split at the sign bit, 128; the 15-bit magnitude rules 0x8000 out. -/
theorem conversionIsSignMagnitude : Obligations.ConversionIsSignMagnitude := by
  intro h l
  have temperature := temperatureOf_toInt h l
  refine ⟨humidityOf_toNat h l, fun plus => ?_, fun minus => ?_, temperatureOf_ne h l⟩
  · rwa [if_pos plus] at temperature
  · rwa [if_neg (Nat.not_lt.2 minus)] at temperature

end Sys2Proof
end

section
/-! PROOFS. The recovery policy (R170 to R177): the branch of TIMEOUT that P selects, and STREAK going round modulo 3
with PWRCYC as its carry. -/

namespace Sys2Proof

open Sys2Proof.Machine

/-! ### The branches of TIMEOUT (R170) -/

/-- Below P = 8 the message is missing (R171). -/
theorem exec_timeout_missing (k : BitVec 32) {s : State} (ha : s.attached = true) (hp : s.p < 8) :
    exec (.timeout k) s = .next (missingMessage s) := by
  obtain ⟨hd, -⟩ | ⟨-, -, e⟩ | ⟨-, low, -⟩ | ⟨-, low, -⟩ := execTimeout_cases k s
  · simp [hd] at ha
  · exact e
  · omega
  · omega

/-- From P = 8 to 38 the message is short (R173). -/
theorem exec_timeout_short (k : BitVec 32) {s : State} (ha : s.attached = true) (low : 8 ≤ s.p) (high : s.p < 39) :
    exec (.timeout k) s = .next (shortMessage s) := by
  obtain ⟨hd, -⟩ | ⟨-, hp, -⟩ | ⟨-, -, -, e⟩ | ⟨-, hp, -⟩ := execTimeout_cases k s
  · simp [hd] at ha
  · omega
  · exact e
  · omega

/-- From P = 39 the message is fully received (R174). -/
theorem exec_timeout_full (k : BitVec 32) {s : State} (ha : s.attached = true) (low : 39 ≤ s.p) :
    exec (.timeout k) s = .next (fullMessage s) := by
  obtain ⟨hd, -⟩ | ⟨-, hp, -⟩ | ⟨-, -, hp, -⟩ | ⟨-, -, e⟩ := execTimeout_cases k s
  · simp [hd] at ha
  · omega
  · omega
  · exact e

/-- While detached TIMEOUT has no effect (R192). -/
theorem exec_timeout_detached (k : BitVec 32) {s : State} (hd : s.attached = false) :
    exec (.timeout k) s = .next s.quiet := by
  obtain ⟨-, e⟩ | ⟨ha, -⟩ | ⟨ha, -⟩ | ⟨ha, -⟩ := execTimeout_cases k s
  · exact e
  all_goals simp [hd] at ha

/-- Settles O27: the branch that P selects, and in the missing-message branch the one that STREAK selects, with the
increments read as numbers. -/
theorem timeoutFollowsThePolicy : Obligations.TimeoutFollowsThePolicy := by
  intro k s
  simp only [← satInc_toNat, BitVec.ofNat_add, BitVec.ofNat_toNat, BitVec.setWidth_eq]
  refine ⟨decode_encode (i := .timeout k) rfl, fun ha hp grows => ?grows, fun ha hp escalates => ?escalates,
    exec_timeout_short k, exec_timeout_full k, exec_timeout_detached k⟩
  case grows =>
    obtain ⟨-, e⟩ | ⟨full, -⟩ := missingMessage_cases s
    · rw [exec_timeout_missing k ha hp, e]
    · omega
  case escalates =>
    obtain ⟨below, -⟩ | ⟨-, e⟩ := missingMessage_cases s
    · omega
    · rw [exec_timeout_missing k ha hp, e]

/-! ### One missing message (R171, R172) -/

/-- From `s` to `t` one missing message is counted: STREAK goes round modulo 3, and its carry is PWRCYC, which CNT_RESET
counts. -/
structure CountsMissing (s t : State) : Prop where
  bound : s.streak.toNat ≤ 2
  streak : t.streak.toNat = (s.streak.toNat + 1) % 3
  pwrcyc : t.outputs.pwrcyc.toNat = (s.streak.toNat + 1) / 3
  cntMissing : t.cntMissing.toNat = min (s.cntMissing.toNat + 1) (2 ^ 32 - 1)
  cntReset : t.cntReset.toNat = min (s.cntReset.toNat + t.outputs.pwrcyc.toNat) (2 ^ 32 - 1)

/-- The policy's missing-message branch counts one. -/
theorem missingMessage_counts {s : State} (bound : s.streak.toNat ≤ 2) : CountsMissing s (missingMessage s) := by
  obtain ⟨below, e⟩ | ⟨full, e⟩ := missingMessage_cases s <;> rw [e]
  · have := s.cntReset.isLt
    exact ⟨bound, by simp only; bv_omega, by simp; omega, satInc_toNat _, by simp; omega⟩
  · have two : s.streak.toNat = 2 := by omega
    exact ⟨bound, by simp [two], by simp [two], satInc_toNat _, satInc_toNat _⟩

/-- A step that performs a missing-message TIMEOUT counts one, at whatever wall clock. -/
theorem MissingMessageStep.counts {s t : State} (h : MissingMessageStep s t) (bound : s.streak.toNat ≤ 2) :
    CountsMissing s t := by
  obtain ⟨ha, hp, k, performs⟩ := h
  obtain ⟨ins, wall, e⟩ := performs_exec performs
  have missing := exec_timeout_missing k (s := { s with inputs := ins, wallNow := wall }) ha hp
  obtain rfl := Host.Outcome.next.inj (missing.symm.trans e)
  obtain ⟨-, streak, pwrcyc, cntMissing, cntReset⟩ :=
    missingMessage_counts (s := { s with inputs := ins, wallNow := wall }) bound
  exact ⟨bound, streak, pwrcyc, cntMissing, cntReset⟩

/-! ### What comes between (R177) -/

/-- The registers that missing messages count in: STREAK, CNT_MISSING and CNT_RESET (R171, R172). -/
def policyRegisters (s : State) : BitVec 2 × Count × Count := (s.streak, s.cntMissing, s.cntReset)

/-- A missing message changes STREAK, from every value of it. -/
theorem missingMessage_streak_ne (s : State) : (missingMessage s).streak ≠ s.streak := by
  obtain ⟨below, e⟩ | ⟨full, e⟩ := missingMessage_cases s <;> rw [e]
  · simp
  · intro zero
    simp [← zero] at full

/-- An operation that keeps STREAK is no missing message, and no other writes CNT_MISSING or CNT_RESET. -/
theorem exec_keeps_policyRegisters {i : Instr} {s u : State} (h : exec i s = .next u) (kept : u.streak = s.streak) :
    policyRegisters u = policyRegisters s := by
  cases exec_cases h with
  | timeoutMissing => exact absurd kept (missingMessage_streak_ne s)
  | _ => exact Prod.ext kept (by simp [policyRegisters])

/-- A step without reset that keeps STREAK keeps the two counters with it. -/
theorem StreakKeptStep.policyRegisters_eq {s t : State} (h : StreakKeptStep s t) :
    policyRegisters t = policyRegisters s := by
  obtain ⟨noReset, hs, kept⟩ := h
  obtain ⟨-, rfl⟩ | ⟨c, rest, hin, ⟨hrst, -⟩ | ⟨-, -, e⟩ | ⟨-, -, -, e⟩ | ⟨-, -, -, rfl⟩⟩ := step_cases hs
  · rfl
  · simp [noReset c rest hin] at hrst
  · exact (exec_keeps_policyRegisters e kept).trans rfl
  · exact (exec_keeps_policyRegisters e kept).trans rfl
  · rfl

/-- Any number of such steps keeps them. -/
theorem StreakKept.policyRegisters_eq {s t : State} (h : StreakKept s t) : policyRegisters t = policyRegisters s := by
  induction h with
  | refl => rfl
  | tail _ next ih => exact next.policyRegisters_eq.trans ih

/-! ### Three missing messages (R177) -/

/-- After a missing message STREAK is within its bound again (R42), and stays so while it is kept. -/
theorem CountsMissing.bound_after {s t u : State} (h : CountsMissing s t)
    (kept : policyRegisters u = policyRegisters t) : u.streak.toNat ≤ 2 := by
  have same : u.streak = t.streak := congrArg Prod.fst kept
  rw [same, h.streak]
  omega

/-- Counting `k` and then `l`, each up to the maximum `m`, is counting their sum (R40). -/
theorem min_count_add (n k l m : Nat) : min (min (n + k) m + l) m = min (n + (k + l)) m := by
  omega

/-- Three missing messages, with the policy's registers kept between them, take STREAK once round: one carry. -/
theorem CountsMissing.three {a a' b b' c c' : State} (first : CountsMissing a a')
    (toSecond : policyRegisters b = policyRegisters a') (second : CountsMissing b b')
    (toThird : policyRegisters c = policyRegisters b') (third : CountsMissing c c') :
    c'.streak = a.streak ∧ c'.cntReset.toNat = min (a.cntReset.toNat + 1) (2 ^ 32 - 1)
      ∧ c'.cntMissing.toNat = min (a.cntMissing.toNat + 3) (2 ^ 32 - 1)
      ∧ a'.outputs.pwrcyc.toNat + b'.outputs.pwrcyc.toNat + c'.outputs.pwrcyc.toNat = 1 := by
  simp only [policyRegisters, Prod.mk.injEq] at toSecond toThird
  obtain ⟨streakB, missingB, resetB⟩ := toSecond
  obtain ⟨streakC, missingC, resetC⟩ := toThird
  have carries : a'.outputs.pwrcyc.toNat + b'.outputs.pwrcyc.toNat + c'.outputs.pwrcyc.toNat = 1 := by
    rw [first.pwrcyc, second.pwrcyc, third.pwrcyc, streakC, second.streak, streakB, first.streak]
    have := first.bound
    omega
  refine ⟨BitVec.eq_of_toNat_eq ?_, ?_, ?_, carries⟩
  · rw [third.streak, streakC, second.streak, streakB, first.streak]
    have := first.bound
    omega
  · rw [third.cntReset, resetC, second.cntReset, resetB, first.cntReset, min_count_add, min_count_add,
      ← Nat.add_assoc a'.outputs.pwrcyc.toNat, carries]
  · rw [third.cntMissing, missingC, second.cntMissing, missingB, first.cntMissing, min_count_add, min_count_add]

/-- Settles O29: the second and third TIMEOUT find P and ATTACHED as the first did, so each counts a missing message. -/
theorem everyThirdMissingMessageEscalatesOnce : Obligations.EveryThirdMissingMessageEscalatesOnce := by
  intro a b c s ha hp bound
  have first := missingMessage_counts bound
  have second := missingMessage_counts (first.bound_after rfl)
  have third := missingMessage_counts (second.bound_after rfl)
  obtain ⟨streak, reset, missing, -⟩ := first.three rfl second rfl third
  refine ⟨_, ?_, streak, reset, missing, by simp, by simp⟩
  rw [execAll_cons (exec_timeout_missing a ha hp),
    execAll_cons (exec_timeout_missing b (by simpa using ha) (by simpa using hp)),
    execAll_cons (exec_timeout_missing c (by simpa using ha) (by simpa using hp)), execAll_nil]

/-- Settles O57: whatever keeps STREAK between the TIMEOUTs keeps the counters too, so the three count as in a row. -/
theorem everyThirdMissingMessageStepEscalatesOnce : Obligations.EveryThirdMissingMessageStepEscalatesOnce := by
  intro a a' b b' c c' bound stepA toB stepB toC stepC
  have first := stepA.counts bound
  have keptB := StreakKept.policyRegisters_eq toB
  have second := stepB.counts (first.bound_after keptB)
  have keptC := StreakKept.policyRegisters_eq toC
  have third := stepC.counts (second.bound_after keptC)
  exact first.three keptB second keptC third

end Sys2Proof
end

section
/-! PROOFS. The control operations and what is performed while detached (R190 to R194, R288): the subscription, the
events it discards, and the reserved kinds. -/

namespace Sys2Proof

open Sys2Proof.Machine

/-! ### The subscription (R190, R191, R194) -/

/-- CLEANUP while attached disarms and detaches (R191). -/
theorem exec_cleanup_attached (k : BitVec 32) {s : State} (ha : s.attached = true) :
    exec (.cleanup k) s = .next { s.emit { disarm := true } with attached := false } := by
  obtain ⟨-, e⟩ | ⟨hd, -⟩ := execCleanup_cases k s
  · exact e
  · simp [ha] at hd

/-- CLEANUP while detached has no effect (R191). -/
theorem exec_cleanup_detached (k : BitVec 32) {s : State} (hd : s.attached = false) :
    exec (.cleanup k) s = .next s.quiet := by
  obtain ⟨ha, -⟩ | ⟨-, e⟩ := execCleanup_cases k s
  · simp [hd] at ha
  · exact e

/-- Settles O31: ATTACH by its meaning, CLEANUP by its two cases; both words are the encoder's. -/
theorem attachAndCleanupSetTheSubscription : Obligations.AttachAndCleanupSetTheSubscription :=
  fun k _ => ⟨decode_encode (i := .attach k) rfl, decode_encode (i := .cleanup k) rfl, rfl, exec_cleanup_attached k,
    exec_cleanup_detached k⟩

/-- An operation that answers the state it finds, repeated, leaves that state. -/
theorem execAll_replicate_fixed {i : Instr} {s : State} (fixed : exec i s = .next s) (n : Nat) :
    execAll (List.replicate n i) s = .next s := by
  induction n with
  | zero => rfl
  | succ n ih => rw [List.replicate_succ, execAll_cons fixed, ih]

/-- CLEANUP leaves ATTACHED 0 from either value of it (R191). -/
theorem exec_cleanup_detaches (k : BitVec 32) (s : State) : ∃ t, exec (.cleanup k) s = .next t ∧ t.attached = false := by
  obtain ⟨t, cleaned⟩ := exec_completes (.cleanup k) s
  exact ⟨t, cleaned, exec_attached cleaned⟩

/-- Settles O32: the state of one ATTACH is fixed by ATTACH; that of one CLEANUP is detached, so the next CLEANUP only
ends its pulse and answers a state fixed by CLEANUP. -/
theorem controlPairIsIdempotent : Obligations.ControlPairIsIdempotent := by
  intro k n s
  obtain ⟨t, cleaned, detached⟩ := exec_cleanup_detaches k s
  refine ⟨?attach, t, cleaned, ?cleanup⟩
  case attach => exact execAll_replicate_fixed (s := { s.quiet with attached := true }) rfl n
  case cleanup =>
    rw [List.replicate_succ, execAll_cons (exec_cleanup_detached k detached)]
    exact execAll_replicate_fixed (exec_cleanup_detached k (s := t.quiet) detached) n

/-! ### What is discarded while detached (R192, R288) -/

/-- An event of the edge source has no effect while detached (R192). -/
theorem exec_edgeEvent_detached {i : Instr} {s : State} (edge : isEdgeEvent i = true) (hd : s.attached = false) :
    exec i s = .next s.quiet := by
  cases i with
  | rise k => exact exec_rise_detached hd
  | timeout k => exact exec_timeout_detached k hd
  | fall k =>
    obtain ⟨-, e⟩ | ⟨ha, -⟩ | ⟨ha, -⟩ | ⟨ha, -⟩ := execFall_cases k s
    · exact e
    all_goals simp [hd] at ha
  | _ => cases edge

/-- Settles O33: the edge source's events are discarded; ATTACH, CLEANUP and the reads, SNAP and plain, are not. -/
theorem detachedEventsHaveNoEffect : Obligations.DetachedEventsHaveNoEffect := by
  refine ⟨fun k s hd => ?events, fun k s => ⟨⟨_, rfl, rfl⟩, exec_cleanup_detaches k s⟩, fun a s => ?reads⟩
  case events =>
    exact ⟨exec_edgeEvent_detached rfl hd, exec_edgeEvent_detached rfl hd, exec_edgeEvent_detached rfl hd⟩
  case reads =>
    by_cases ha : a = 0x0#4
    · subst ha
      exact ⟨_, rfl, rfl⟩
    · obtain ⟨w, answered, -⟩ := exec_plainRead (decodeRead_isPlainRead ha) s
      exact ⟨_, answered, rfl⟩

/-- Any events of the edge source leave a detached block as it was, but for the outputs of its latest step. -/
theorem execAll_edgeEvents_detached {events : List Instr} {s : State} (edges : ∀ i ∈ events, isEdgeEvent i = true)
    (hd : s.attached = false) : ∃ o, execAll events s = .next (s.emit o) := by
  induction events generalizing s with
  | nil => exact ⟨s.outputs, rfl⟩
  | cons i is ih =>
    obtain ⟨edge, edges⟩ := List.forall_mem_cons.1 edges
    obtain ⟨o, rest⟩ := ih (s := s.quiet) edges hd
    exact ⟨o, (execAll_cons (exec_edgeEvent_detached edge hd)).trans rest⟩

/-- Settles O34: the events change only the outputs, which ATTACH replaces, and ATTACH sets again the one register that
CLEANUP cleared. -/
theorem reattachKeepsTheFrame : Obligations.ReattachKeepsTheFrame := by
  intro a b events s ha edges
  obtain ⟨o, discarded⟩ :=
    execAll_edgeEvents_detached (s := { s.emit { disarm := true } with attached := false }) edges rfl
  rw [execAll_cons (exec_cleanup_attached a ha), execAll_append discarded]
  calc execAll [.attach b] _ = .next { s with attached := true, outputs := {} } := rfl
    _ = .next { s with outputs := {} } := by rw [← ha]

/-! ### The reserved kinds (R193) -/

/-- KIND as a number (R81). -/
theorem kindOf_toNat (w : BitVec 36) : (kindOf w).toNat = w.toNat / 2 ^ 32 := by
  have := w.isLt
  rw [kindOf, BitVec.extractLsb'_toNat, Nat.shiftRight_eq_div_pow]
  omega

/-- A KIND of 3 to 7, or of 10 or more, is reserved (R82). -/
theorem decodeCmd_isReservedCmd {w : BitVec 36}
    (range : (3 ≤ (kindOf w).toNat ∧ (kindOf w).toNat ≤ 7) ∨ 10 ≤ (kindOf w).toNat) :
    isReservedCmd (decodeCmd w) = true := by
  have not0 : kindOf w ≠ 0x0#4 := by bv_omega
  have not1 : kindOf w ≠ 0x1#4 := by bv_omega
  have not2 : kindOf w ≠ 0x2#4 := by bv_omega
  have not8 : kindOf w ≠ 0x8#4 := by bv_omega
  have not9 : kindOf w ≠ 0x9#4 := by bv_omega
  simp only [decodeCmd, if_neg not0, if_neg not1, if_neg not2, if_neg not8, if_neg not9]
  split_ifs <;> rfl

/-- A reserved kind sets CMDERR, whatever its KIND, its TICK and ATTACHED (R193). -/
theorem exec_reservedCmd {i : Instr} (reserved : isReservedCmd i = true) (s : State) :
    exec i s = .next s.noteReserved := by
  cases i with
  | rsvCmd3 | rsvCmd4To7 | rsvCmdAToB | rsvCmdCToF => rfl
  | _ => cases reserved

/-- Settles O35: by constructor, and for a word by the kinds the decoder answers as reserved. -/
theorem reservedKindsOnlySetCmdErr : Obligations.ReservedKindsOnlySetCmdErr := by
  refine fun s => ⟨fun w range => ?word, fun k t => ?constructors⟩
  case word =>
    rw [← kindOf_toNat] at range
    exact exec_reservedCmd (decodeCmd_isReservedCmd range) s
  case constructors =>
    exact ⟨exec_reservedCmd rfl s, exec_reservedCmd rfl s, exec_reservedCmd rfl s, exec_reservedCmd rfl s⟩

end Sys2Proof
end

section
/-! PROOFS. The read interface word by word (R210 to R224), the reads of one snapshot, which nothing but reset or another
SNAP disturbs (R225), and the growth of the staleness (R226). -/

namespace Sys2Proof

open Sys2Proof.Machine

/-! ### The words of the read port (R8, R39) -/

/-- A counter is as wide as the word it is read in (R6). -/
@[simp] theorem zext32_count (v : Count) : zext32 v = v := BitVec.setWidth_eq v

/-- Zero extension keeps the number (R8). -/
theorem zext32_toNat {n : Nat} (h : n ≤ 32) (v : BitVec n) : (zext32 v).toNat = v.toNat :=
  BitVec.toNat_setWidth_of_le h

/-- Sign extension keeps the signed number (R8). -/
theorem sext32_toInt {n : Nat} (h : n ≤ 32) (v : BitVec n) : (sext32 v).toInt = v.toInt :=
  BitVec.toInt_signExtend_of_le h

/-- The four bytes of FRAME_DATA (R39): an append is read in its low part or in its high part. -/
theorem frameDataWord_bytes (s : State) :
    (frameDataWord s).extractLsb' 24 8 = s.hh ∧ (frameDataWord s).extractLsb' 16 8 = s.hl
    ∧ (frameDataWord s).extractLsb' 8 8 = s.th ∧ (frameDataWord s).extractLsb' 0 8 = s.tl := by
  simp (disch := omega) only [frameDataWord, BitVec.extractLsb'_append_eq_of_le, BitVec.extractLsb'_append_eq_of_add_le]
  simp

/-- Settles O40: the words are FRAME_DATA, FRAME_CS and 0, of the present state. -/
theorem frameAndReservedReads : Obligations.FrameAndReservedReads := by
  refine ⟨⟨rfl, rfl, rfl, rfl⟩, fun s _ => ⟨frameDataWord s, frameCsWord s, rfl, ?_⟩⟩
  obtain ⟨hh, hl, th, tl⟩ := frameDataWord_bytes s
  exact ⟨hh, hl, th, tl, rfl, zext32_toNat (by decide) s.cs, rfl⟩

/-- Settles O38: a counter is its own word. -/
theorem counterReadsReturnTheCounts : Obligations.CounterReadsReturnTheCounts := by
  refine ⟨⟨rfl, rfl, rfl, rfl⟩, fun s => ?_⟩
  simp only [exec, execRdCntBadcs, execRdCntShort, execRdCntMissing, execRdCntReset, zext32_count]
  exact ⟨rfl, rfl, rfl, rfl⟩

/-- Settles O37: each latch register is given back by its extension, or by its two words together (R67). -/
theorem latchedReadsReturnTheLatch : Obligations.LatchedReadsReturnTheLatch :=
  ⟨⟨rfl, rfl, rfl, rfl, rfl, rfl⟩, fun s => ⟨_, _, _, _, _, _,
    rfl, zext32_toNat (by decide) s.lHum,
    rfl, sext32_toInt (by decide) s.lTemp,
    rfl, rfl, hiWord_loWord s.lTov,
    rfl, rfl, hiWord_loWord s.lStale⟩⟩

/-! ### SNAP and the staleness it takes (R210, R226) -/

/-- Settles O36: SNAP loads the latch, with the staleness as a number. -/
theorem snapLoadsTheLatch : Obligations.SnapLoadsTheLatch := by
  refine ⟨rfl, fun s => ?_⟩
  rw [← stalenessOf_eq]
  rfl

/-- With TOV in the past the staleness of a reading is the wall time since TOV. -/
theorem stalenessOf_toNat {s : State} (valid : s.valid = true) (past : s.tov.toNat ≤ s.wallNow.toNat) :
    (stalenessOf s).toNat = s.wallNow.toNat - s.tov.toNat := by
  rw [stalenessOf, if_pos valid, BitVec.toNat_sub_of_le past]

/-- Settles O43: both stalenesses are the wall time since the one TOV, and the later clock is no smaller. -/
theorem stalenessGrowsWithTheWallClock : Obligations.StalenessGrowsWithTheWallClock := by
  intro s t validS validT sameTov past later
  have staleS : (stalenessOf s).toNat = s.wallNow.toNat - s.tov.toNat := stalenessOf_toNat validS past
  have staleT : (stalenessOf t).toNat = t.wallNow.toNat - t.tov.toNat :=
    stalenessOf_toNat validT (sameTov ▸ past.trans later)
  refine ⟨_, _, rfl, rfl, ?_, staleT⟩
  change (stalenessOf s).toNat ≤ (stalenessOf t).toNat
  rw [staleS, staleT, sameTov]
  exact Nat.sub_le_sub_right later _

/-! ### The latch between two SNAPs (R225) -/

/-- What the latch holds: L_VALID, L_HUM, L_TEMP, L_TOV and L_STALE (R36). -/
abbrev Latch : Type := Bool × Reading × Reading × Wall × Wall

/-- The five latch registers (R36). -/
def latchRegisters (s : State) : Latch := (s.lValid, s.lHum, s.lTemp, s.lTov, s.lStale)

/-- Every operation but SNAP keeps the latch (R36). -/
theorem exec_keeps_latch {i : Instr} {s u : State} (h : exec i s = .next u) (noSnap : i ≠ .rdSnap) :
    latchRegisters u = latchRegisters s := by
  obtain ⟨valid, hum, temp, tov, stale⟩ := latchWrittenOnlyBySnap.2 i s u h noSnap
  simp only [latchRegisters, valid, hum, temp, tov, stale]

/-- Only address 0x0 of the read port is SNAP's (R85). -/
theorem decodeRead_ne_snap {a : BitVec 4} (h : a ≠ 0x0#4) : decodeRead a ≠ .rdSnap := by
  intro snap
  simpa [snap, isPlainRead] using decodeRead_isPlainRead h

/-- No command word is a SNAP (R82). -/
theorem decodeCmd_ne_snap (w : BitVec 36) : decodeCmd w ≠ .rdSnap := by
  intro snap
  simpa [snap, encode] using encode_decodeCmd w

/-- A cycle that keeps the latch and reads, reads another address than SNAP's. -/
theorem rdAddr_ne_of_keepsLatch {c : PortCycle} (h : keepsLatch c = true) (hrd : c.rdEn = true) : c.rdAddr ≠ 0x0#4 := by
  intro snap
  simp [keepsLatch, hrd, snap] at h

/-- The latch holds `latch`, and no cycle still to come resets or presents a SNAP. -/
def LatchHeld (latch : Latch) (s : State) : Prop :=
  latchRegisters s = latch ∧ ∀ d ∈ s.inputs, keepsLatch d = true

/-- A step over a cycle that keeps the latch performs another operation than SNAP, or none. -/
theorem step_keeps_latchHeld {latch : Latch} {s t : State} (held : LatchHeld latch s) (h : step s = .next t) :
    LatchHeld latch t := by
  obtain ⟨same, keep⟩ := held
  obtain ⟨-, rfl⟩ | ⟨c, rest, hin, cycle⟩ := step_cases h
  · exact ⟨same, keep⟩
  rw [hin] at keep
  obtain ⟨keepFirst, keepRest⟩ := List.forall_mem_cons.1 keep
  obtain ⟨hrst, -⟩ | ⟨hrst, hrd, e⟩ | ⟨-, -, -, e⟩ | ⟨-, -, -, rfl⟩ := cycle
  · simp [keepsLatch, hrst] at keepFirst
  · refine ⟨(exec_keeps_latch e (decodeRead_ne_snap (rdAddr_ne_of_keepsLatch keepFirst hrd))).trans same, ?_⟩
    rw [(exec_keeps_ports e).1]
    exact keepsLatch_afterRead hrst keepRest
  · refine ⟨(exec_keeps_latch e (decodeCmd_ne_snap _)).trans same, ?_⟩
    rw [(exec_keeps_ports e).1]
    exact keepRest
  · exact ⟨same, keepRest⟩

/-- A property that every step keeps, every run keeps. -/
theorem run_keeps {P : State → Prop} (keep : ∀ a b, P a → step a = .next b → P b) {k : Nat} {s u : State} (hs : P s)
    (h : Host.Core.run core k s = .next u) : P u := by
  induction k generalizing s with
  | zero => injection h with h; subst h; exact hs
  | succ k ih =>
    obtain ⟨t, ht⟩ := everyStepCompletes.2 s
    rw [run_succ (M := core) ht] at h
    exact ih (keep s t hs ht) h

/-- The step of a SNAP loads the latch from the state it sees, at its cycle's clock (R210); the command beside it, if
any, comes after it (R72) and keeps the latch. -/
theorem latchHeld_of_snap {s t : State} {c : PortCycle} {rest : List PortCycle} (hin : s.inputs = c :: rest)
    (hrst : c.rst = false) (hrd : c.rdEn = true) (haddr : c.rdAddr = 0x0#4) (keep : ∀ d ∈ rest, keepsLatch d = true)
    (h : step s = .next t) :
    LatchHeld (s.valid, s.hum, s.temp, s.tov, if s.valid = true then c.wallNow - s.tov else 0#64) t := by
  rw [step_of_read hin hrst hrd, haddr] at h
  injection h with h
  subst h
  exact ⟨rfl, keepsLatch_afterRead hrst keep⟩

/-- A cycle that presents one read performs it, at its own clock. -/
theorem step_readCycle (s : State) (wall : Wall) (a : BitVec 4) (more : List PortCycle) :
    step { s with inputs := cycleOf wall (.rd a) :: more }
      = exec (decodeRead a) { s with wallNow := wall, inputs := more } :=
  step_of_cycleOf (s := { s with inputs := cycleOf wall (.rd a) :: more }) rfl

/-- Settles O42: the SNAP's step loads the latch, the run holds it, and each read answers from it. -/
theorem latchedReadsComeFromOneSnapshot : Obligations.LatchedReadsComeFromOneSnapshot := by
  intro s t u c rest k hin hrst hrd haddr keep snap run wall more reads
  obtain ⟨held, -⟩ := run_keeps (fun _ _ => step_keeps_latchHeld) (latchHeld_of_snap hin hrst hrd haddr keep snap) run
  simp only [latchRegisters, Prod.mk.injEq] at held
  obtain ⟨-, hum, temp, tov, stale⟩ := held
  have staleLo : loWord u.lStale = if s.valid = true then (c.wallNow - s.tov).extractLsb' 0 32 else 0#32 := by
    rw [stale, apply_ite loWord]; rfl
  have staleHi : hiWord u.lStale = if s.valid = true then (c.wallNow - s.tov).extractLsb' 32 32 else 0#32 := by
    rw [stale, apply_ite hiWord]; rfl
  rw [← staleLo, ← staleHi, ← hum, ← temp, ← tov]
  have read (a : BitVec 4) := step_readCycle u wall a more
  exact ⟨read 0x1#4, read 0x2#4, read 0x3#4, read 0x4#4, read 0x5#4, read 0x6#4⟩

end Sys2Proof
end

section
/-! PROOFS. Two runs of one operation at two wall clocks (R245): only SNAP and a publish read the clock, so every other
operation writes the same at both, and a publish differs in TOV alone. -/

namespace Sys2Proof

open Sys2Proof.Machine

/-! ### The shared operations at another wall clock -/

/-- A pulse does not read the wall clock. -/
theorem takePulse_withWall (c : Pulse) (s : State) (wall : Wall) :
    takePulse c { s with wallNow := wall } = { takePulse c s with wallNow := wall } := by
  unfold takePulse State.routeBit
  split_ifs <;> rfl

/-- An accepted RISE does not read it. -/
theorem acceptRise_withWall (t : Tick) (s : State) (wall : Wall) :
    acceptRise t { s with wallNow := wall } = { acceptRise t s with wallNow := wall } := by
  have same : isStart t { s with wallNow := wall } = isStart t s := rfl
  unfold acceptRise
  rw [same]
  split_ifs <;> rfl

/-- The recovery policy does not read it. -/
theorem acceptTimeout_withWall (s : State) (wall : Wall) :
    acceptTimeout { s with wallNow := wall } = { acceptTimeout s with wallNow := wall } := by
  unfold acceptTimeout missingMessage
  split_ifs <;> rfl

/-- A frame that passes is published at its completion (R127, R150). -/
theorem completeFrame_of_passes {s : State} (pass : framePasses s = true) :
    completeFrame s = State.publish { s with streak := 0#2, outputs := { disarm := true } } :=
  if_pos pass

/-- A frame that fails is counted at its completion (R127, R154). -/
theorem completeFrame_of_fails {s : State} (fail : framePasses s = false) :
    completeFrame s = { s with streak := 0#2, outputs := { disarm := true }, cntBadcs := satInc s.cntBadcs } :=
  if_neg (Bool.eq_false_iff.1 fail)

/-- Whether a frame passes does not depend on the wall clock: it is published at both clocks, each time with its own as
TOV (R153), or at neither, and then the clock is not read. -/
theorem completeFrame_withWall (s : State) (wall : Wall) :
    completeFrame { s with wallNow := wall } = { completeFrame s with wallNow := wall }
    ∨ (completeFrame s).valid = true ∧ (completeFrame s).tov = s.wallNow
      ∧ completeFrame { s with wallNow := wall } = { completeFrame s with wallNow := wall, tov := wall } := by
  cases outcome : framePasses s with
  | false =>
    rw [completeFrame_of_fails outcome, completeFrame_of_fails (s := { s with wallNow := wall }) outcome]
    exact Or.inl rfl
  | true =>
    rw [completeFrame_of_passes outcome, completeFrame_of_passes (s := { s with wallNow := wall }) outcome]
    exact Or.inr ⟨rfl, rfl, rfl⟩

/-! ### The operations at another wall clock -/

/-- An operation that is no FALL and no SNAP answers the same at any wall clock. -/
theorem exec_withWall {i : Instr} {s u : State} (wall : Wall) (noFall : isFall i = false) (noSnap : i ≠ .rdSnap)
    (h : exec i s = .next u) : exec i { s with wallNow := wall } = .next { u with wallNow := wall } := by
  cases i with
  | fall k => cases noFall
  | rdSnap => exact absurd rfl noSnap
  | rise k =>
    simp only [exec, execRise, acceptRise_withWall] at h ⊢
    split_ifs at h ⊢ <;> cases h <;> rfl
  | timeout k =>
    simp only [exec, execTimeout, acceptTimeout_withWall] at h ⊢
    split_ifs at h ⊢ <;> cases h <;> rfl
  | cleanup k =>
    simp only [exec, execCleanup] at h ⊢
    split_ifs at h ⊢ <;> cases h <;> rfl
  | _ => cases h; rfl

/-- A FALL answers the same at any wall clock, unless it publishes; then TOV is the clock it sees. -/
theorem exec_fall_withWall {k : BitVec 32} {s u : State} (wall : Wall) (h : exec (.fall k) s = .next u) :
    exec (.fall k) { s with wallNow := wall } = .next { u with wallNow := wall }
    ∨ (s.attached = true ∧ s.p = 39 ∧ u.valid = true ∧ u.tov = s.wallNow
        ∧ exec (.fall k) { s with wallNow := wall } = .next { u with wallNow := wall, tov := wall }) := by
  cases exec_cases h with
  | fallDetached _ hd => exact Or.inl (exec_edgeEvent_detached (s := { s with wallNow := wall }) rfl hd)
  | fallIdle _ _ idle => exact Or.inl (exec_fall_idle k (s := { s with wallNow := wall }) idle)
  | fallBit _ ha hp hn =>
    left
    rw [exec_fall_bit k (s := { s with wallNow := wall }) ha (show s.p < 39 by omega), takePulse_withWall]
    rfl
  | fallLast _ ha hp =>
    rw [exec_fall_last k (s := { s with wallNow := wall }) ha hp, takePulse_withWall]
    obtain same | ⟨valid, tov, other⟩ :=
      completeFrame_withWall (takePulse (classify (interval k s.lastRise)) s) wall
    · exact Or.inl (congrArg _ same)
    · exact Or.inr ⟨ha, hp, valid, tov.trans (by simp), congrArg _ other⟩
  | reserved _ hr => cases hr
  | plainRead _ _ hr => cases hr

/-- Settles O53: SNAP is excluded, a FALL reads the clock only to publish, and every other operation never reads it. -/
theorem wallClockReadOnlyByPublishAndSnap : Obligations.WallClockReadOnlyByPublishAndSnap := by
  intro i s u wall h noSnap
  cases i with
  | fall k => exact (exec_fall_withWall wall h).imp id fun publish => ⟨⟨k, rfl⟩, publish⟩
  | _ => exact Or.inl (exec_withWall wall rfl noSnap h)

end Sys2Proof
end

section
/-! PROOFS. The reset cycle (R270), what it alone clears (R274), and that a run goes on (R292). -/

namespace Sys2Proof

open Sys2Proof.Machine

/-! ### The reset cycle (R270) -/

/-- Settles O1: the reset state is a closed term, each register of it compared with its row of the table. -/
theorem resetStateIsIdleAndEmpty : Obligations.ResetStateIsIdleAndEmpty := by
  unfold Obligations.ResetStateIsIdleAndEmpty
  decide

/-- A cycle with `rst` is settled by the ports, whatever else it presents. -/
theorem step_of_reset {s : State} {c : PortCycle} {rest : List PortCycle} (hin : s.inputs = c :: rest)
    (hrst : c.rst = true) : step s = .next (resetCycle c rest) := by
  simp [step, present, hin, hrst]

/-- After a reset cycle STATUS, at address 0xB, shows PQ = 42 alone (R38), and the other fifteen addresses, whose words
are made of registers that are 0, read 0. -/
theorem exec_decodeRead_resetCycle (c : PortCycle) (rest : List PortCycle) (a : BitVec 4) :
    ∃ u, exec (decodeRead a) (resetCycle c rest) = .next u
      ∧ u.outputs.rdData = some (if a = 0xB#4 then 0x00002A00#32 else 0#32) := by
  obtain rfl | rfl | rfl | rfl | rfl | rfl | rfl | rfl | rfl | rfl | rfl | rfl | rfl | rfl | rfl | rfl :=
    nibble_cases a <;> refine ⟨_, rfl, ?_⟩ <;>
    simp [resetCycle, State.reset, zextFlag, zext32, sext32, loWord, hiWord, statusWord, pqOf, frameDataWord,
      frameCsWord]

/-- Settles O2: the step is the reset cycle, which has the reset state's registers, and reads after it see those. -/
theorem resetCycleRestoresResetValues : Obligations.ResetCycleRestoresResetValues := by
  intro s c rest hin hrst
  exact ⟨_, step_of_reset hin hrst, rfl, rfl, exec_decodeRead_resetCycle c rest⟩

/-! ### What only reset clears (R274) -/

/-- A saturating increment never lowers a counter, at its maximum included (R40). -/
theorem toNat_le_satInc (c : Count) : c.toNat ≤ (satInc c).toNat := by
  have := c.isLt
  rw [satInc_toNat]
  omega

/-- A counter that is kept, or is incremented in its event, does not fall (R35). -/
theorem counter_toNat_le {c d : Count} {event : Prop} (h : d = c ∨ (d = satInc c ∧ event)) : c.toNat ≤ d.toNat := by
  obtain rfl | ⟨rfl, -⟩ := h
  · exact le_rfl
  · exact toNat_le_satInc c

/-- No operation clears VALID: a publish, which alone writes it, sets it (R37). -/
theorem exec_keeps_valid {i : Instr} {s u : State} (h : exec i s = .next u) (hv : s.valid = true) :
    u.valid = true := by
  obtain ⟨-, -, -, kept⟩ | ⟨-, -, -, -, -, -, -, -, set⟩ := readingStoreChangesOnlyTogether i s u h
  · exact kept.trans hv
  · exact set

/-- No operation clears CMDERR: the reserved kinds, which alone write it, set it (R30). -/
theorem exec_keeps_cmdErr {i : Instr} {s u : State} (h : exec i s = .next u) (hc : s.cmdErr = true) :
    u.cmdErr = true := by
  obtain kept | ⟨set, -⟩ := (controlFlagsWrittenOnlyByTheirCommands i s u h).2
  · exact kept.trans hc
  · exact set

/-- No operation clears RISE_SEEN: an accepted RISE, which alone writes it, sets it (R27). -/
theorem exec_keeps_riseSeen {i : Instr} {s u : State} (h : exec i s = .next u) (hr : s.riseSeen = true) :
    u.riseSeen = true := by
  obtain ⟨-, kept⟩ | ⟨ha, t, rfl⟩ := riseTimingWrittenOnlyByAcceptedRise.2 i s u h
  · exact kept.trans hr
  · obtain ⟨v, e, -, set⟩ := execRise_notes t ha
    rw [h] at e
    cases e
    exact set

/-- No operation clears anything sticky: each register of R274 by the law of what writes it. -/
theorem exec_keeps_sticky {i : Instr} {s u : State} (h : exec i s = .next u) : StickyKept s u where
  valid := exec_keeps_valid h
  cmdErr := exec_keeps_cmdErr h
  riseSeen := exec_keeps_riseSeen h
  cntBadcs := counter_toNat_le (exec_cntBadcs h)
  cntShort := counter_toNat_le (exec_cntShort h)
  cntMissing := counter_toNat_le (exec_cntMissing h)
  cntReset := counter_toNat_le (exec_cntReset h)

/-- Moving the ports on clears nothing sticky. -/
theorem stickyKept_withPorts (s : State) (ins : List PortCycle) (wall : Wall) (o : Outputs) :
    StickyKept s { s with inputs := ins, wallNow := wall, outputs := o } :=
  ⟨id, id, id, le_rfl, le_rfl, le_rfl, le_rfl⟩

/-- What is kept from a state whose ports have been read is kept from the state before. -/
theorem StickyKept.of_withPorts {s u : State} {ins : List PortCycle} {wall : Wall}
    (h : StickyKept { s with inputs := ins, wallNow := wall } u) : StickyKept s u :=
  { h with }

/-- A step whose cycle does not assert `rst` performs an operation, or none, with the ports moved on. -/
theorem step_keeps_sticky {s u : State} (noReset : ∀ c rest, s.inputs = c :: rest → c.rst = false)
    (h : step s = .next u) : StickyKept s u := by
  obtain ⟨-, rfl⟩ | ⟨c, rest, hin, ⟨hrst, -⟩ | ⟨-, -, e⟩ | ⟨-, -, -, e⟩ | ⟨-, -, -, rfl⟩⟩ := step_cases h
  · exact stickyKept_withPorts ..
  · exact absurd hrst (Bool.eq_false_iff.1 (noReset c rest hin))
  · exact (exec_keeps_sticky e).of_withPorts
  · exact (exec_keeps_sticky e).of_withPorts
  · exact stickyKept_withPorts ..

/-- Settles O49: operations and steps without `rst` keep what is sticky, and the reset cycle has it cleared. -/
theorem onlyResetClearsStickyState : Obligations.OnlyResetClearsStickyState := by
  refine ⟨fun i s u => exec_keeps_sticky, fun s u => step_keeps_sticky, fun s c rest hin hrst => ?_⟩
  exact ⟨_, step_of_reset hin hrst, rfl, rfl, rfl, rfl, rfl, rfl, rfl⟩

/-! ### A run goes on (R292) -/

/-- Settles O10: by induction on the length; every step completes, so the run and its observation both take it. -/
theorem runsNeverHalt : Obligations.RunsNeverHalt := by
  intro k
  induction k with
  | zero => exact fun s => ⟨rfl, rfl, everyStepCompletes.2 s⟩
  | succ k ih =>
    intro s
    obtain ⟨t, ht⟩ := everyStepCompletes.2 s
    obtain ⟨shown, reached, goesOn⟩ := ih t
    rw [observe_succ ht, run_succ (M := core) ht]
    exact ⟨congrArg (· + 1) shown, reached, goesOn⟩

end Sys2Proof
end
